-- ==== Sys2Proof/Word.lean ====
section
/-! DEFINITION. The words of the Ivaroc 720: octets, 16-bit quantities and the numbers named by them (00 Conventions). -/

namespace Sys2Proof

/-- An octet. -/
abbrev Byte := BitVec 8

/-- A 16-bit quantity. -/
abbrev Word := BitVec 16

/-- A station number (1..65534), or 65535 for the whole team where a target is meant. -/
abbrev Station := BitVec 16

/-- A reading of the 16-bit millisecond time counter (R2). -/
abbrev Stamp := BitVec 16

/-- A team number as a burst carries it (R3). -/
abbrev Team := BitVec 8

/-- A call number (R3). -/
abbrev CallNumber := BitVec 8

/-- A 16-bit digest (R61). -/
abbrev Digest := BitVec 16

/-- A level sample of the transceiver's converter (R17). -/
abbrev Level := BitVec 10

/-- The number of one of the 128 buffers (R75). -/
abbrev BufferNumber := Fin 128

end Sys2Proof
end

