-- ==== Sys2Proof/Syntax.lean ====
section
/-! DEFINITION. The 43 commands of the part: one constructor per row of spec/opcode_table.json. -/

namespace Sys2Proof

/-- The three resets of R158. They differ only in what starts them. -/
inductive ResetCause where
  | powerOn
  | supplyLow
  | resetPin
  deriving DecidableEq, Repr

/-- A complete command frame of the terminal port but for its command code, which the row gives, and its length octet, which
is the number of parameter octets that followed (R143, R169). -/
structure Frame where
  params : List Byte
  check : Word
  deriving DecidableEq, Repr

/-- The commands: events on the part's lines, expiries of its timers and counts, and command frames of the terminal port. -/
inductive Instr where
  /-- RESET (R158). -/
  | reset (cause : ResetCause)
  /-- RESET_END (R159). -/
  | resetEnd
  /-- CONFIG_OCTET_READ (R159): the octet that the serial memory answered. -/
  | configOctetRead (octet : Byte)
  /-- NO_MEMORY (R162). -/
  | noMemory
  /-- BURST_SYNC (R9). -/
  | burstSync
  /-- BURST_RECEIVED (R11): the 32 octets as received. -/
  | burstReceived (octets : List Byte)
  /-- SHORT_BURST (R9). -/
  | shortBurst
  /-- LEVEL_SAMPLE (R17). -/
  | levelSample (level : Level)
  /-- PACE_TIMER_EXPIRY (R21). -/
  | paceTimerExpiry
  /-- GAP_COMPLETE (R37). -/
  | gapComplete
  /-- SLOT_COMPLETE (R38). -/
  | slotComplete
  /-- ON_AIR_COMPLETION (R40). -/
  | onAirCompletion
  /-- FORCE_TIMER_EXPIRY (R51). -/
  | forceTimerExpiry
  /-- READBACK_WAIT_EXPIRY (R94): the slot of the order whose timer expires. -/
  | readbackWaitExpiry (slot : Fin 8)
  /-- AGING_TIMER_EXPIRY (R70). -/
  | agingTimerExpiry
  /-- SILENCE_TIMER_EXPIRY (R115). -/
  | silenceTimerExpiry
  /-- PRESENCE_TIMER_EXPIRY (R116). -/
  | presenceTimerExpiry
  /-- OFFER_TIMER_EXPIRY (R126). -/
  | offerTimerExpiry
  /-- HOLD_EXPIRY (R133). -/
  | holdExpiry
  /-- EMERGENCY_KEY_EDGE (R134). -/
  | emergencyKeyEdge
  /-- CAB_STOP_TRANSITION (R138): the filtered level after the transition, true for active. -/
  | cabStopTransition (active : Bool)
  /-- SELECT_INACTIVE (R143). -/
  | selectInactive
  /-- BAD_COMMAND (R144): a complete frame whose code names no command. -/
  | badCommand (code : Byte) (frame : Frame)
  /-- READ_STATUS (R147). -/
  | readStatus (frame : Frame)
  /-- SUBMIT_ORDER (R87). -/
  | submitOrder (frame : Frame)
  /-- CANCEL_ORDER (R98). -/
  | cancelOrder (frame : Frame)
  /-- TAKE_CALL (R80). -/
  | takeCall (frame : Frame)
  /-- RELEASE_CALL (R81). -/
  | releaseCall (frame : Frame)
  /-- TAKE_EXCEPTION (R151). -/
  | takeException (frame : Frame)
  /-- TAKE_RESULT (R103). -/
  | takeResult (frame : Frame)
  /-- READ_PEERS (R152). -/
  | readPeers (frame : Frame)
  /-- SEND_ALLSTOP (R136). -/
  | sendAllstop (frame : Frame)
  /-- STOP_REQUEST (R139). -/
  | stopRequest (frame : Frame)
  /-- CLEAR_TERMINAL_STOP (R139). -/
  | clearTerminalStop (frame : Frame)
  /-- JOIN_TEAM (R109). -/
  | joinTeam (frame : Frame)
  /-- LEAVE_TEAM (R110). -/
  | leaveTeam (frame : Frame)
  /-- NARROW_RANGE (R153). -/
  | narrowRange (frame : Frame)
  /-- READ_COUNTS (R16). -/
  | readCounts (frame : Frame)
  /-- READ_AND_CLEAR_COUNTS (R16). -/
  | readAndClearCounts (frame : Frame)
  /-- SET_MASK (R150). -/
  | setMask (frame : Frame)
  /-- RESTART (R154). -/
  | restart (frame : Frame)
  /-- SELECT_ACTIVE (R143). -/
  | selectActive
  /-- EMERGENCY_KEY_RELEASE (R156). -/
  | emergencyKeyRelease
  deriving DecidableEq, Repr

end Sys2Proof
end

