-- ==== Sys2Proof/Decode.lean ====
section
/-! DEFINITION. Decoding a table word. No row of spec/opcode_table.json has bits ("fields" is empty on every row and none has
"fixed"), so no word spells a command. -/

namespace Sys2Proof

/-- The command that the bits of a word spell by the opcode table: none, as no row of the table gives bits. -/
def decodeTableWord (_nbits _w : Nat) : Option Instr := none

end Sys2Proof
end

