-- ==== Sys2Proof/Machine/Octets.lean ====
section
/-! DEFINITION. Octet order, the burst CRC (R7), the digest (R61), the fragment count F(L) (R5) and small list helpers. -/

namespace Sys2Proof.Machine

/-- A 16-bit quantity, high octet first (00 Conventions). -/
def ofOctets (high low : Byte) : Word := high ++ low

def highOctet (w : Word) : Byte := w.extractLsb' 8 8

def lowOctet (w : Word) : Byte := w.extractLsb' 0 8

/-- The two octets of a 16-bit quantity, high octet first. -/
def octetsOf (w : Word) : List Byte := [highOctet w, lowOctet w]

/-- Octet i of a list of octets; an octet that is not there reads 0. -/
def octetAt (octets : List Byte) (i : Nat) : Byte := octets.getD i 0

/-- The 16-bit quantity at octets i and i + 1. -/
def wordAt (octets : List Byte) (i : Nat) : Word := ofOctets (octetAt octets i) (octetAt octets (i + 1))

/-- A number as an octet, a number as two octets. -/
def octet (n : Nat) : Byte := BitVec.ofNat 8 n

def octets2 (n : Nat) : List Byte := octetsOf (BitVec.ofNat 16 n)

/-- One bit through the CRC register: polynomial x^16 + x^12 + x^5 + 1 (R7). -/
def crcBit (r : Word) : Word := if r.msb then (r <<< 1) ^^^ 0x1021#16 else r <<< 1

/-- One octet, most significant bit first (R7). -/
def crcOctet (r : Word) (x : Byte) : Word :=
  crcBit (crcBit (crcBit (crcBit (crcBit (crcBit (crcBit (crcBit (r ^^^ ofOctets x 0))))))))

/-- The CRC of R7: the register starts at all ones, nothing is reflected and no final value is added. -/
def crc (octets : List Byte) : Word := octets.foldl crcOctet 0xFFFF#16

/-- One octet through the two sums of R61. -/
def digestStep (sums : Nat × Nat) (x : Byte) : Nat × Nat :=
  let a := (sums.1 + x.toNat) % 255
  (a, (sums.2 + a) % 255)

/-- The digest of R61: b × 256 + a. -/
def digest (octets : List Byte) : Digest :=
  let sums := octets.foldl digestStep (0, 0)
  BitVec.ofNat 16 (sums.2 * 256 + sums.1)

/-- F(L), the number of fragments of a call of length L (R5). -/
def fragmentCount (length : Nat) : Nat := if length ≤ 20 then 1 else 1 + (length - 20 + 21) / 22

/-- n octets from the front, filled up with 0. -/
def padTo (n : Nat) (octets : List Byte) : List Byte := (octets ++ List.replicate n 0).take n

/-- n bodies of 22 octets each, one after another; the octets after the last data octet are 0 (R5). -/
def bodies : Nat → List Byte → List (List Byte)
  | 0, _ => []
  | n + 1, octets => padTo 22 octets :: bodies n (octets.drop 22)

/-- The first slot in use whose content satisfies p, with its number. -/
def findSlot {α : Type} (p : α → Bool) : List (Option α) → Option (Nat × α)
  | [] => none
  | none :: rest => (findSlot p rest).map (fun x => (x.1 + 1, x.2))
  | some a :: rest => if p a then some (0, a) else (findSlot p rest).map (fun x => (x.1 + 1, x.2))

/-- The lowest-numbered slot that is empty. -/
def firstEmpty {α : Type} : List (Option α) → Option Nat
  | [] => none
  | none :: _ => some 0
  | some _ :: rest => (firstEmpty rest).map (· + 1)

/-- The content of slot i, if it is in use. -/
def slotAt {α : Type} (slots : List (Option α)) (i : Nat) : Option α := slots.getD i none

end Sys2Proof.Machine
end

