-- ==== Sys2Proof/Config.lean ====
section
/-! DEFINITION. The configuration in force: the checked fields of a configuration block (R161, R170). The part leaves no result open, so there is no free value here. -/

namespace Sys2Proof

/-- The configured role (R170). -/
inductive Role where
  | portable
  | locomotive
  deriving DecidableEq, Repr

/-- The fields of a checked configuration block (R170); thresholds and rates are the numbers that R161 bounds. -/
structure Config where
  role : Role
  station : Station
  homeTeam : Team
  rangeLow : Team
  rangeHigh : Team
  /-- T_b (R18). -/
  busyThreshold : Nat
  /-- H (R18). -/
  hysteresis : Nat
  /-- T_c (R21). -/
  crowdThreshold : Nat
  /-- RDF (R25). -/
  decreaseFactor : Nat
  /-- AIR (R26). -/
  increase : Nat
  rMin : Nat
  rInit : Nat
  rMax : Nat
  /-- Bits 1-0 of the timing-code octet (R42). -/
  wBaseCode : BitVec 2
  /-- Bits 3-2 of the timing-code octet (R93). -/
  readbackBaseCode : BitVec 2
  /-- Bits 5-4 of the timing-code octet (R70). -/
  agingCode : BitVec 2
  /-- Stop scope, bit 6 of the timing-code octet: set for GANGED (R125). -/
  ganged : Bool
  /-- Bit 7 of the timing-code octet (R108, R153). -/
  tight : Bool
  /-- Bits 2-0 of the code octet (R115). -/
  supervisionCode : BitVec 3
  /-- Bits 6-3 of the code octet (R94). -/
  attemptLimit : Nat
  deriving DecidableEq, Repr

/-- What is read where no configuration is in force: every field 0 (R147 reads the station items 0 there). -/
def Config.blank : Config :=
  { role := .portable, station := 0, homeTeam := 0, rangeLow := 0, rangeHigh := 0, busyThreshold := 0, hysteresis := 0,
    crowdThreshold := 0, decreaseFactor := 0, increase := 0, rMin := 0, rInit := 0, rMax := 0, wBaseCode := 0,
    readbackBaseCode := 0, agingCode := 0, ganged := false, tight := false, supervisionCode := 0, attemptLimit := 0 }

end Sys2Proof
end

