-- ==== Sys2Proof/Machine/State.lean ====
section
/-! DEFINITION. The state of the part, block by block (00 "The nine blocks"), as plain data, and the state right after a power-on reset. -/

namespace Sys2Proof.Machine

/-! ### Names of the chapters -/

/-- R157. -/
inductive PartState where
  | configuring
  | running
  | halted
  deriving DecidableEq, Repr

/-- R162; BAD_FIELD carries the octet offset of the field. -/
inductive FaultCode where
  | none
  | noMemory
  | badDigest
  | badField (offset : Byte)
  deriving DecidableEq, Repr

/-- R18. -/
inductive SenseState where
  | clear
  | busy
  deriving DecidableEq, Repr

/-- 03 section 3.2. -/
inductive AccessState where
  | idle
  | gap
  | backoff
  | onAir
  deriving DecidableEq, Repr

/-- The force timer of a staged ALLSTOP (R34, R51): the ms it has left, or marked expired during ON_AIR. -/
inductive ForceTimer where
  | none
  | running (msLeft : Nat)
  | expired
  deriving DecidableEq, Repr

/-- The presence flag of a PRESENCE burst and of a presence request (R3, R117). -/
inductive PresenceFlag where
  | normal
  | joining
  | leaving
  deriving DecidableEq, Repr

/-- R63, R167. -/
inductive Verdict where
  | accepted
  | refusedNotHolder
  | refusedStopped
  | refusedNoOffer
  | refusedTooSoon
  | refusedNoRoom
  deriving DecidableEq, Repr

/-- R68. -/
inductive ExceptionCode where
  | noContext
  | noBuffer
  | outOfOrder
  | lengthMismatch
  | badType
  | agedOut
  | superseded
  | rcqFull
  deriving DecidableEq, Repr

/-- R85. -/
inductive OrderState where
  | queued
  | sending
  | awaitReadback
  | finished
  deriving DecidableEq, Repr

/-- Where the SENDING order's next fragment stands in the transmitter (R92). -/
inductive FragmentPlace where
  | none
  | staged
  | onAir
  deriving DecidableEq, Repr

/-- R85, R97. -/
inductive OrderOutcome where
  | done
  | partial_
  | refused
  | failed
  | noPeers
  | cancelled
  deriving DecidableEq, Repr

/-- R111. -/
inductive LinkState where
  | active
  | fading
  | lost
  deriving DecidableEq, Repr

/-- The control state of a locomotive (R118). -/
inductive Control where
  | unheld
  | held (holder : Station)
  | offerPending (holder offered : Station) (stamp : Stamp)
  deriving DecidableEq, Repr

/-- Where a staged or on-air burst came from (R34). An ALLSTOP carries the request's team, a PRESENCE its flag. -/
inductive Source where
  | allstop (team : Team)
  | readback
  | presence (flag : PresenceFlag)
  | fragment (slot index : Nat)
  deriving DecidableEq, Repr

/-- The terminal port (R143): select inactive, a command frame being shifted in, or a command taken and its reply on data out. -/
inductive PortState where
  | idle
  | frame
  | reply (octets : List Byte)
  deriving DecidableEq, Repr

/-! ### Records -/

/-- R128: each cause is in the set or not. -/
structure Causes where
  radioStop : Bool := false
  allstop : Bool := false
  supervision : Bool := false
  noHolder : Bool := false
  cab : Bool := false
  terminal : Bool := false
  deriving DecidableEq, Repr

/-- R15, in the order of R16. -/
structure Counts where
  burstsGood : Word := 0
  checkFailures : Word := 0
  foreignBursts : Word := 0
  orphanFragments : Word := 0
  duplicateCalls : Word := 0
  strayReadbacks : Word := 0
  deriving DecidableEq, Repr

/-- The burst in the staging register with what it carries (R34). -/
structure Staged where
  burst : List Byte
  source : Source
  window : Nat
  backoff : Nat
  force : ForceTimer
  deriving DecidableEq, Repr

/-- The burst being keyed (R34). -/
structure OnAir where
  burst : List Byte
  source : Source
  deriving DecidableEq, Repr

/-- An ASSEMBLING context (R53). -/
structure Context where
  sender : Station
  senderRole : Role
  callNumber : CallNumber
  target : Station
  callType : Byte
  length : Nat
  confirm : Bool
  next : Nat
  buffers : List BufferNumber
  crowdedSeen : Bool
  firstStamp : Stamp
  age : Nat
  deriving DecidableEq, Repr

/-- A record of the Receive Complete Queue (R66). The fragment count is the number of buffers and the handle is the first. -/
structure CallRecord where
  sender : Station
  senderRole : Role
  target : Station
  callNumber : CallNumber
  callType : Byte
  length : Nat
  buffers : List BufferNumber
  firstStamp : Stamp
  lastStamp : Stamp
  confirm : Bool
  fromHolder : Bool
  crowdedSeen : Bool
  verdict : Verdict
  deriving DecidableEq, Repr

/-- An entry of the Exception Queue (R68). -/
structure ExceptionEntry where
  code : ExceptionCode
  sender : Station
  callNumber : CallNumber
  index : Nat
  stamp : Stamp
  deriving DecidableEq, Repr

/-- A held call (R80). -/
structure HeldCall where
  handle : BufferNumber
  buffers : List BufferNumber
  deriving DecidableEq, Repr

/-- A member of a read-back set: answered when it has a verdict (R85). -/
structure Member where
  station : Station
  answer : Option Verdict
  deriving DecidableEq, Repr

/-- An order in a slot of the OOL (R85), with its read-back wait timer (R93: the ms it has left). -/
structure Order where
  sequence : Nat
  callNumber : CallNumber
  callType : Byte
  target : Station
  confirm : Bool
  length : Nat
  digest : Digest
  buffers : List BufferNumber
  next : Nat
  place : FragmentPlace
  attempts : Nat
  state : OrderState
  members : List Member
  cancelPending : Bool
  outcome : Option OrderOutcome
  finishStamp : Option Stamp
  wait : Option Nat
  deriving DecidableEq, Repr

/-- R102. -/
structure ResultRecord where
  slot : Nat
  callNumber : CallNumber
  callType : Byte
  target : Station
  outcome : OrderOutcome
  attempts : Nat
  answered : List (Station × Verdict)
  finishStamp : Stamp
  deriving DecidableEq, Repr

/-- R104. -/
structure ReadbackEntry where
  sender : Station
  callNumber : CallNumber
  callType : Byte
  digest : Digest
  verdict : Verdict
  deriving DecidableEq, Repr

/-- R114. -/
structure Delivered where
  callNumber : CallNumber
  digest : Digest
  verdict : Verdict
  deriving DecidableEq, Repr

/-- R111. -/
structure Peer where
  station : Station
  role : Role
  link : LinkState
  silence : Nat
  lastHeard : Stamp
  reportedHolder : Option Station
  reportedCauses : Option Causes
  lastDelivered : Option Delivered
  deriving DecidableEq, Repr

/-- R148. -/
structure StickyFlags where
  causesChanged : Bool := false
  allstopHeard : Bool := false
  exqOverflow : Bool := false
  ownNumberHeard : Bool := false
  peerTableFull : Bool := false
  deriving DecidableEq, Repr

/-- R150: a mark that is set lets its condition drive the interrupt output. -/
structure Mask where
  rcq : Bool
  exq : Bool
  rsq : Bool
  causesChanged : Bool
  allstopHeard : Bool
  deriving DecidableEq, Repr

/-- The outputs: STOPD asserted (R130), interrupt output active (R149), transmit key on (R39). -/
structure Pins where
  stopd : Bool
  interrupt : Bool
  key : Bool
  deriving DecidableEq, Repr

/-! ### Blocks -/

/-- Configuration Loader (R157 to R162). -/
structure Cfl where
  part : PartState
  resetHeld : Bool
  fault : FaultCode
  holding : List Byte
  inForce : Option Config
  deriving DecidableEq, Repr

/-- Receive Classifier (R9, R15): the reception in progress, with its stamp, is the inside-burst indication too. -/
structure Rxc where
  reception : Option Stamp
  counts : Counts
  deriving DecidableEq, Repr

/-- Channel Access Unit (R18 to R52). -/
structure Cau where
  sense : SenseState
  occupancy : Nat
  average : Nat
  crowded : Bool
  crowdedHeard : Bool
  rate : Nat
  credit : Nat
  paceSamples : Nat
  staging : Option Staged
  onAir : Option OnAir
  onAirSamples : Nat
  access : AccessState
  gapCount : Nat
  slotCount : Nat
  gateOpen : Bool
  /-- A request held and not yet staged (R48); a staged ALLSTOP carries its request's team in its source. -/
  allstopRequest : Option Team
  /-- none while unseeded (R44). -/
  generator : Option (BitVec 15)
  deriving DecidableEq, Repr

/-- Assembly Unit (R53, R67, R69, R70): 24 contexts, none for VACANT. -/
structure Asu where
  contexts : List (Option Context)
  rcq : List CallRecord
  exq : List ExceptionEntry
  agingMs : Nat
  deriving DecidableEq, Repr

/-- Buffer Pool (R75, R76, R80): octet i of buffer b stands at address 22 b + i of the memory. -/
structure Bpl where
  free : List BufferNumber
  held : List HeldCall
  memory : List Host.Cell
  deriving DecidableEq, Repr

/-- Order Unit (R85, R86, R103, R104): 8 slots, none for empty, and the slots of FINISHED orders in the order they finished. -/
structure Odu where
  ool : List (Option Order)
  rsq : List ResultRecord
  rbq : List ReadbackEntry
  callNumber : CallNumber
  nextSequence : Nat
  finishedSlots : List Nat
  deriving DecidableEq, Repr

/-- Team Unit (R107 to R118): peers in ascending order of station number. -/
structure Tmu where
  attached : Bool
  leavePending : Bool
  homeTeam : Team
  peers : List Peer
  control : Control
  /-- The outstanding presence request: pending, or staged until its burst goes on air (R116). -/
  presenceRequest : Option PresenceFlag
  presenceCount : Nat
  silenceMs : Nat
  presenceMs : Nat
  deriving DecidableEq, Repr

/-- Stop Unit (R128 to R138). -/
structure Stu where
  causes : Causes
  lastAllstop : Option Stamp
  hold : Bool
  repeatCount : Nat
  seriesTeam : Option Team
  cabInput : Bool
  keyInput : Bool
  deriving DecidableEq, Repr

/-- Terminal Port (R143 to R155). -/
structure Tpt where
  mask : Mask
  flags : StickyFlags
  range : Option (Team × Team)
  port : PortState
  deriving DecidableEq, Repr

/-- The whole part, and the queue of the commands that wait. -/
structure State where
  time : Stamp
  cfl : Cfl
  rxc : Rxc
  cau : Cau
  asu : Asu
  bpl : Bpl
  odu : Odu
  tmu : Tmu
  stu : Stu
  tpt : Tpt
  pins : Pins
  pending : List Instr
  deriving DecidableEq, Repr

/-! ### Reset values -/

/-- R158, R162: what the CFL holds while a reset is held. -/
def Cfl.reset : Cfl := { part := .configuring, resetHeld := true, fault := .none, holding := [], inForce := none }

/-- R16, R158. -/
def Rxc.reset : Rxc := { reception := none, counts := {} }

/-- R33 and R52, first columns. -/
def Cau.reset : Cau :=
  { sense := .clear, occupancy := 0, average := 0, crowded := false, crowdedHeard := false, rate := 0, credit := 0,
    paceSamples := 0, staging := none, onAir := none, onAirSamples := 0, access := .idle, gapCount := 0, slotCount := 0,
    gateOpen := false, allstopRequest := none, generator := none }

/-- R74, first column. -/
def Asu.reset : Asu := { contexts := List.replicate 24 none, rcq := [], exq := [], agingMs := 0 }

/-- R83, first column. Buffer contents are not defined there: every octet reads 0 (DESIGN CHOICE, log 6). -/
def Bpl.reset : Bpl := { free := List.finRange 128, held := [], memory := [] }

/-- R106, first column. -/
def Odu.reset : Odu :=
  { ool := List.replicate 8 none, rsq := [], rbq := [], callNumber := 0, nextSequence := 0, finishedSlots := [] }

/-- R127, first column. Attachment, home team and control state are named by log 8 (DESIGN CHOICE). -/
def Tmu.reset : Tmu :=
  { attached := false, leavePending := false, homeTeam := 0, peers := [], control := .unheld, presenceRequest := none,
    presenceCount := 0, silenceMs := 0, presenceMs := 0 }

/-- R140. The filtered inputs are inactive (DESIGN CHOICE, log 9). -/
def Stu.reset : Stu :=
  { causes := {}, lastAllstop := none, hold := false, repeatCount := 0, seriesTeam := none, cabInput := false, keyInput := false }

/-- R150, R155, first column. -/
def Tpt.reset : Tpt :=
  { mask := { rcq := true, exq := true, rsq := true, causesChanged := true, allstopHeard := true }, flags := {}, range := none,
    port := .idle }

/-- The part in the event of a power-on reset (R158): CONFIGURING with the reset held, the time counter 0, STOPD asserted, the
interrupt output inactive, the transmitter silent, no command waiting. -/
def State.reset : State :=
  { time := 0, cfl := Cfl.reset, rxc := Rxc.reset, cau := Cau.reset, asu := Asu.reset, bpl := Bpl.reset, odu := Odu.reset,
    tmu := Tmu.reset, stu := Stu.reset, tpt := Tpt.reset, pins := { stopd := true, interrupt := false, key := false }, pending := [] }

/-! ### Reasons to stop -/

/-- The part never stops with a fault: a bad configuration block halts it, and HALTED is a state (R162, R164). So there is no
constructor. -/
inductive Fault where
  deriving DecidableEq, Repr

/-- Why a command has no outcome. No meaning answers with it: every row of the table has its meaning. -/
inductive Refusal where
  /-- Raised only by an arm of exec whose command has no meaning yet (there is none); safe. -/
  | notModelled (mnemonic : String)
  deriving DecidableEq, Repr

end Sys2Proof.Machine
end

