-- ==== Sys2Proof/WellFormed.lean ====
section
/-! DEFINITION. Which terms of Instr are commands of the part: the length checks that the types do not make. -/

namespace Sys2Proof

/-- A frame's parameter length is one octet (R169). -/
def Frame.wellFormed (f : Frame) : Bool := decide (f.params.length ≤ 255)

/-- The codes 0x01 to 0x12 name the eighteen commands (R169). -/
def namesCommand (code : Byte) : Bool := decide (1 ≤ code.toNat ∧ code.toNat ≤ 18)

/-- A command of the part: a received burst has 32 octets (R1), a frame at most 255 parameter octets (R169), and the code of a
BAD_COMMAND frame names no command (R144). -/
def Instr.wellFormed : Instr → Bool
  | .burstReceived octets => decide (octets.length = 32)
  | .badCommand code f => !namesCommand code && f.wellFormed
  | .readStatus f => f.wellFormed
  | .submitOrder f => f.wellFormed
  | .cancelOrder f => f.wellFormed
  | .takeCall f => f.wellFormed
  | .releaseCall f => f.wellFormed
  | .takeException f => f.wellFormed
  | .takeResult f => f.wellFormed
  | .readPeers f => f.wellFormed
  | .sendAllstop f => f.wellFormed
  | .stopRequest f => f.wellFormed
  | .clearTerminalStop f => f.wellFormed
  | .joinTeam f => f.wellFormed
  | .leaveTeam f => f.wellFormed
  | .narrowRange f => f.wellFormed
  | .readCounts f => f.wellFormed
  | .readAndClearCounts f => f.wellFormed
  | .setMask f => f.wellFormed
  | .restart f => f.wellFormed
  | .reset _ => true
  | .resetEnd => true
  | .configOctetRead _ => true
  | .noMemory => true
  | .burstSync => true
  | .shortBurst => true
  | .levelSample _ => true
  | .paceTimerExpiry => true
  | .gapComplete => true
  | .slotComplete => true
  | .onAirCompletion => true
  | .forceTimerExpiry => true
  | .readbackWaitExpiry _ => true
  | .agingTimerExpiry => true
  | .silenceTimerExpiry => true
  | .presenceTimerExpiry => true
  | .offerTimerExpiry => true
  | .holdExpiry => true
  | .emergencyKeyEdge => true
  | .cabStopTransition _ => true
  | .selectInactive => true
  | .selectActive => true
  | .emergencyKeyRelease => true

end Sys2Proof
end

