-- ==== Sys2Proof/Machine/Operands.lean ====
section
/-! DEFINITION. What the octets of bursts, frames and the configuration block stand for (12), and the coded parameters (10 section 10.7). -/

namespace Sys2Proof.Machine

/-! ### Codes -/

def Role.bit : Role → Bool
  | .portable => false
  | .locomotive => true

/-- R167. -/
def Verdict.toByte : Verdict → Byte
  | .accepted => 0
  | .refusedNotHolder => 1
  | .refusedStopped => 2
  | .refusedNoOffer => 3
  | .refusedTooSoon => 4
  | .refusedNoRoom => 5

/-- R167; any other code is not one of the six verdicts (R96). -/
def Verdict.ofByte (b : Byte) : Option Verdict :=
  match b.toNat with
  | 0 => some .accepted
  | 1 => some .refusedNotHolder
  | 2 => some .refusedStopped
  | 3 => some .refusedNoOffer
  | 4 => some .refusedTooSoon
  | 5 => some .refusedNoRoom
  | _ => none

/-- The cause marks of R167; bits 7 and 6 are 0. -/
def Causes.toByte (c : Causes) : Byte :=
  0#2 ++ BitVec.ofBool c.terminal ++ BitVec.ofBool c.cab ++ BitVec.ofBool c.noHolder ++ BitVec.ofBool c.supervision ++
    BitVec.ofBool c.allstop ++ BitVec.ofBool c.radioStop

/-- Bits 7 and 6 of a received cause set octet are not looked at (R171). -/
def Causes.ofByte (b : Byte) : Causes :=
  { radioStop := b.getLsbD 0, allstop := b.getLsbD 1, supervision := b.getLsbD 2, noHolder := b.getLsbD 3, cab := b.getLsbD 4,
    terminal := b.getLsbD 5 }

/-- The call types of R6. -/
inductive CallType where
  | move
  | countdown
  | stop
  | release
  | handoverOffer
  | handoverTake
  | relinquish
  | cutList
  | notice
  | terminalDefined
  deriving DecidableEq, Repr

/-- R6; every other code is a bad type. -/
def CallType.ofByte (b : Byte) : Option CallType :=
  match b.toNat with
  | 0x01 => some .move
  | 0x02 => some .countdown
  | 0x03 => some .stop
  | 0x04 => some .release
  | 0x05 => some .handoverOffer
  | 0x06 => some .handoverTake
  | 0x07 => some .relinquish
  | 0x10 => some .cutList
  | 0x11 => some .notice
  | n => if 0x20 ≤ n ∧ n ≤ 0x3F then some .terminalDefined else none

/-! ### Bursts -/

/-- R3. -/
inductive BurstKind where
  | call
  | readback
  | presence
  | allstop
  deriving DecidableEq, Repr

def BurstKind.bits : BurstKind → BitVec 2
  | .call => 0
  | .readback => 1
  | .presence => 2
  | .allstop => 3

def BurstKind.ofBits (b : BitVec 2) : BurstKind :=
  match b.toNat with
  | 0 => .call
  | 1 => .readback
  | 2 => .presence
  | _ => .allstop

def PresenceFlag.bits : PresenceFlag → BitVec 2
  | .normal => 0
  | .joining => 1
  | .leaving => 2

/-- The fourth code is taken as normal (R4). -/
def PresenceFlag.ofBits (b : BitVec 2) : PresenceFlag :=
  match b.toNat with
  | 1 => .joining
  | 2 => .leaving
  | _ => .normal

/-- The header fields of R3 and the body. -/
structure Burst where
  kind : BurstKind
  crowded : Bool
  role : Role
  index : BitVec 3
  last : Bool
  team : Team
  sender : Station
  target : Station
  callNumber : CallNumber
  confirm : Bool
  presence : PresenceFlag
  body : List Byte
  deriving DecidableEq, Repr

/-- Read the fields at the places of R167. -/
def readBurst (octets : List Byte) : Burst :=
  let h := octetAt octets 0
  let f := octetAt octets 7
  { kind := BurstKind.ofBits (h.extractLsb' 6 2), crowded := h.getLsbD 5,
    role := if h.getLsbD 4 then .locomotive else .portable, index := h.extractLsb' 1 3, last := h.getLsbD 0,
    team := octetAt octets 1, sender := wordAt octets 2, target := wordAt octets 4, callNumber := octetAt octets 6,
    confirm := f.getLsbD 7, presence := PresenceFlag.ofBits (f.extractLsb' 5 2), body := (octets.drop 8).take 22 }

/-- The 30 octets of header and body at the places of R167; bits 4-0 of octet 7 are 0. -/
def headerAndBody (b : Burst) : List Byte :=
  [b.kind.bits ++ BitVec.ofBool b.crowded ++ BitVec.ofBool (Role.bit b.role) ++ b.index ++ BitVec.ofBool b.last, b.team] ++
    octetsOf b.sender ++ octetsOf b.target ++ [b.callNumber, BitVec.ofBool b.confirm ++ b.presence.bits ++ 0#5] ++ padTo 22 b.body

/-- The 32 octets of a composed burst: header, body and CRC, high octet first (R168). -/
def writeBurst (b : Burst) : List Byte := headerAndBody b ++ octetsOf (crc (headerAndBody b))

/-- The CRC check of R7: 32 octets came, and the last two are the CRC of the first 30. -/
def crcGood (octets : List Byte) : Bool :=
  decide (octets.length = 32) && decide (wordAt octets 30 = crc (octets.take 30))

/-- The all-stop code pattern (R8). -/
def allstopPattern : List Byte := [0x3C, 0x96, 0xC3, 0x69, 0x3C, 0x96, 0xC3, 0x69]

/-- The pattern counts as exact when the first eight body octets equal it (R8). -/
def patternExact (b : Burst) : Bool := decide (b.body.take 8 = allstopPattern)

/-- The target of a call to the whole team (R3). -/
def wholeTeam : Station := 65535

/-- Station numbers are 1..65534 (R3). -/
def isStation (n : Station) : Bool := decide (n ≠ 0 ∧ n ≠ 65535)

/-! ### The configuration block (R170) -/

def roleOfByte (b : Byte) : Option Role :=
  match b.toNat with
  | 1 => some .portable
  | 2 => some .locomotive
  | _ => none

/-- The fields of a block at the offsets of R170. The role of a block whose role code names none is not used. -/
def readConfig (block : List Byte) : Config :=
  let timing := octetAt block 19
  let codes := octetAt block 20
  { role := (roleOfByte (octetAt block 0)).getD .portable, station := wordAt block 1, homeTeam := octetAt block 3,
    rangeLow := octetAt block 4, rangeHigh := octetAt block 5, busyThreshold := (wordAt block 6).toNat,
    hysteresis := (octetAt block 8).toNat, crowdThreshold := (wordAt block 9).toNat, decreaseFactor := (octetAt block 11).toNat,
    increase := (octetAt block 12).toNat, rMin := (wordAt block 13).toNat, rInit := (wordAt block 15).toNat,
    rMax := (wordAt block 17).toNat, wBaseCode := timing.extractLsb' 0 2, readbackBaseCode := timing.extractLsb' 2 2,
    agingCode := timing.extractLsb' 4 2, ganged := timing.getLsbD 6, tight := timing.getLsbD 7,
    supervisionCode := codes.extractLsb' 0 3, attemptLimit := (codes.extractLsb' 3 4).toNat }

/-- R160: the digest over offsets 0..21 stands at offsets 22 and 23. -/
def blockDigestGood (block : List Byte) : Bool := decide (wordAt block 22 = digest (block.take 22))

/-- The checks of R161 in their order, each with the offset it reports. -/
def fieldChecks (block : List Byte) : List (Bool × Byte) :=
  let c := readConfig block
  [((roleOfByte (octetAt block 0)).isSome, 0),
   (isStation c.station, 1),
   (decide (1 ≤ c.homeTeam.toNat ∧ c.homeTeam.toNat ≤ 250), 3),
   (decide (1 ≤ c.rangeLow.toNat), 4),
   (decide (c.rangeLow.toNat ≤ c.rangeHigh.toNat ∧ c.rangeHigh.toNat ≤ 250), 5),
   (decide (1 ≤ c.busyThreshold ∧ c.busyThreshold ≤ 1023), 6),
   (decide (c.hysteresis ≤ 63), 8),
   (decide (1 ≤ c.crowdThreshold ∧ c.crowdThreshold ≤ 800), 9),
   (decide (1 ≤ c.decreaseFactor ∧ c.decreaseFactor ≤ 7), 11),
   (decide (16 ≤ c.rMin), 13),
   (decide (c.rMin ≤ c.rInit), 15),
   (decide (c.rInit ≤ c.rMax ∧ c.rMax ≤ 1024), 17),
   (decide (1 ≤ c.attemptLimit ∧ c.attemptLimit ≤ 8), 20)]

/-- The offset of the first check that fails (R161). -/
def firstBadField (block : List Byte) : Option Byte := ((fieldChecks block).find? (fun c => !c.1)).map (fun c => c.2)

/-! ### Coded parameters (10 section 10.7) -/

/-- The configuration in force; where there is none, every field reads 0. -/
def State.config (s : State) : Config := s.cfl.inForce.getD Config.blank

/-- R42. -/
def wBase (c : Config) : Nat := 4 * 2 ^ c.wBaseCode.toNat

/-- R93, in ms. -/
def readbackBase (c : Config) : Nat :=
  match c.readbackBaseCode.toNat with
  | 0 => 250
  | 1 => 400
  | 2 => 600
  | _ => 1000

/-- R70. -/
def agingLimit (c : Config) : Nat :=
  match c.agingCode.toNat with
  | 0 => 3
  | 1 => 5
  | 2 => 10
  | _ => 20

/-- R115, in 100 ms units. -/
def supervisionLimit (c : Config) : Nat :=
  match c.supervisionCode.toNat with
  | 0 => 6
  | 1 => 10
  | 2 => 15
  | 3 => 20
  | 4 => 30
  | 5 => 40
  | 6 => 60
  | _ => 80

/-- Half the supervision limit, rounded down (R115). -/
def fadeLimit (c : Config) : Nat := supervisionLimit c / 2

/-- A third of the supervision limit, rounded down (R115). -/
def presenceInterval (c : Config) : Nat := supervisionLimit c / 3

/-! ### Port frames (R169) -/

/-- R144, R169. -/
inductive ReplyCode where
  | ok
  | empty
  | badFrame
  | badCommand
  | notRunning
  | notAttached
  | badType
  | notPermitted
  | badLength
  | badTarget
  | full
  | noBuffers
  | busy
  | notHeld
  | locked
  | badRange
  deriving DecidableEq, Repr

def ReplyCode.toByte : ReplyCode → Byte
  | .ok => 0x00
  | .empty => 0x01
  | .badFrame => 0x10
  | .badCommand => 0x11
  | .notRunning => 0x12
  | .notAttached => 0x13
  | .badType => 0x14
  | .notPermitted => 0x15
  | .badLength => 0x16
  | .badTarget => 0x17
  | .full => 0x18
  | .noBuffers => 0x19
  | .busy => 0x1A
  | .notHeld => 0x1B
  | .locked => 0x1C
  | .badRange => 0x1D

/-- The eighteen commands of the port. -/
inductive PortCommand where
  | readStatus
  | submitOrder
  | cancelOrder
  | takeCall
  | releaseCall
  | takeException
  | takeResult
  | readPeers
  | sendAllstop
  | stopRequest
  | clearTerminalStop
  | joinTeam
  | leaveTeam
  | narrowRange
  | readCounts
  | readAndClearCounts
  | setMask
  | restart
  deriving DecidableEq, Repr

/-- R169. -/
def PortCommand.code : PortCommand → Byte
  | .readStatus => 0x01
  | .submitOrder => 0x02
  | .cancelOrder => 0x03
  | .takeCall => 0x04
  | .releaseCall => 0x05
  | .takeException => 0x06
  | .takeResult => 0x07
  | .readPeers => 0x08
  | .sendAllstop => 0x09
  | .stopRequest => 0x0A
  | .clearTerminalStop => 0x0B
  | .joinTeam => 0x0C
  | .leaveTeam => 0x0D
  | .narrowRange => 0x0E
  | .readCounts => 0x0F
  | .readAndClearCounts => 0x10
  | .setMask => 0x11
  | .restart => 0x12

/-- The parameter length a command requires (R144); L of SUBMIT ORDER is its fifth parameter octet. -/
def PortCommand.requiredLength (c : PortCommand) (params : List Byte) : Nat :=
  match c with
  | .submitOrder => 5 + (octetAt params 4).toNat
  | .narrowRange => 2
  | .joinTeam => 1
  | .sendAllstop => 1
  | .setMask => 1
  | .cancelOrder => 1
  | .releaseCall => 1
  | _ => 0

/-- Whether a command is taken further in a part state (R145). RESTART is refused in CONFIGURING, also during the load that a RESTART
in HALTED began (R145, R154, R159, R166); the decoder row of R155 reads otherwise for that load: DESIGN CHOICE, log 18. -/
def PortCommand.acceptedIn (c : PortCommand) : PartState → Bool
  | .running => true
  | .halted => decide (c = .readStatus ∨ c = .restart)
  | .configuring => decide (c = .readStatus)

/-- The check octets of a command frame equal the digest of code, length and parameters (R143). -/
def frameCheckGood (code : Byte) (f : Frame) : Bool :=
  decide (f.check = digest (code :: octet f.params.length :: f.params))

/-- The tests of R144 for a frame whose code names command c, in their order: the first that fails. -/
def frameRefusal (c : PortCommand) (f : Frame) (part : PartState) : Option ReplyCode :=
  if !frameCheckGood c.code f then some .badFrame
  else if !c.acceptedIn part then some .notRunning
  else if f.params.length ≠ c.requiredLength f.params then some .badFrame
  else none

/-- The octet that a reply frame begins with (R169). -/
def startOctet : Byte := 0xA5

/-- The octet on data out while no reply stands there (R169). -/
def idleOctet : Byte := 0xFF

/-- A reply frame (R169): start octet, command code, reply code, data length, data, check octets. -/
def replyFrame (code : Byte) (answer : ReplyCode) (data : List Byte) : List Byte :=
  let covered := code :: answer.toByte :: octet data.length :: data
  startOctet :: covered ++ octetsOf (digest covered)

/-- What an order submission carries (R87, R169); of the confirm octet only bit 0 is read (R171). -/
structure Submission where
  callType : Byte
  target : Station
  confirm : Bool
  length : Nat
  data : List Byte
  deriving DecidableEq, Repr

def readSubmission (params : List Byte) : Submission :=
  { callType := octetAt params 0, target := wordAt params 1, confirm := (octetAt params 3).getLsbD 0,
    length := (octetAt params 4).toNat, data := params.drop 5 }

/-- The type and target are permitted at submission for the role (R88). -/
def submissionPermitted (role : Role) (t : CallType) (target : Station) : Bool :=
  match t with
  | .release => decide (role = .portable)
  | .handoverOffer => decide (role = .portable ∧ target ≠ wholeTeam)
  | .handoverTake => decide (role = .portable ∧ target = wholeTeam)
  | .relinquish => decide (role = .portable ∧ target = wholeTeam)
  | _ => true

/-- L fits the type (R88), and is at most 174. -/
def submissionLengthFits (t : CallType) (length : Nat) : Bool :=
  decide (length ≤ 174) &&
    match t with
    | .move => decide (length = 2)
    | .countdown => decide (length = 1)
    | .cutList => decide (length % 3 = 0 ∧ 3 ≤ length)
    | .notice => true
    | .terminalDefined => true
    | _ => decide (length = 0)

end Sys2Proof.Machine
end

