-- ==== Sys2Proof/Machine/Flags.lean ====
section
/-! DEFINITION. Counts (R15), sticky flags (R148), the cause set (R128), the interrupt mask (R150) and the outputs (R130, R149, R156). -/

namespace Sys2Proof.Machine

/-! ### Burst counts -/

/-- A count stays at 65535 (R15). -/
def countUp (n : Word) : Word := if n = 65535 then n else n + 1

def countGood (s : State) : State := { s with rxc.counts.burstsGood := countUp s.rxc.counts.burstsGood }

def countCheckFailure (s : State) : State := { s with rxc.counts.checkFailures := countUp s.rxc.counts.checkFailures }

def countForeign (s : State) : State := { s with rxc.counts.foreignBursts := countUp s.rxc.counts.foreignBursts }

def countOrphan (s : State) : State := { s with rxc.counts.orphanFragments := countUp s.rxc.counts.orphanFragments }

def countDuplicate (s : State) : State := { s with rxc.counts.duplicateCalls := countUp s.rxc.counts.duplicateCalls }

def countStray (s : State) : State := { s with rxc.counts.strayReadbacks := countUp s.rxc.counts.strayReadbacks }

/-- The six counts as a reply carries them, in the order of R16. -/
def Counts.octets (c : Counts) : List Byte :=
  octetsOf c.burstsGood ++ octetsOf c.checkFailures ++ octetsOf c.foreignBursts ++ octetsOf c.orphanFragments ++
    octetsOf c.duplicateCalls ++ octetsOf c.strayReadbacks

/-! ### Sticky flags and mask -/

/-- The sticky flag octet (R169). -/
def StickyFlags.toByte (f : StickyFlags) : Byte :=
  0#3 ++ BitVec.ofBool f.peerTableFull ++ BitVec.ofBool f.ownNumberHeard ++ BitVec.ofBool f.exqOverflow ++
    BitVec.ofBool f.allstopHeard ++ BitVec.ofBool f.causesChanged

/-- The five marks of a mask octet (R150, R169). -/
def Mask.ofByte (b : Byte) : Mask :=
  { rcq := b.getLsbD 0, exq := b.getLsbD 1, rsq := b.getLsbD 2, causesChanged := b.getLsbD 3, allstopHeard := b.getLsbD 4 }

/-! ### Cause set -/

/-- R130: a set with no cause in it. -/
def Causes.isEmpty (c : Causes) : Bool := decide (c = {})

def isLocomotive (s : State) : Bool := decide (s.config.role = .locomotive)

/-- R128: on a locomotive the set becomes the given one, and a change of membership sets CAUSES_CHANGED; a portable's set stays. -/
def setCauses (c : Causes) (s : State) : State :=
  if isLocomotive s && decide (c ≠ s.stu.causes) then { s with stu.causes := c, tpt.flags.causesChanged := true } else s

def putRadioStop (s : State) : State := setCauses { s.stu.causes with radioStop := true } s

def putAllstopCause (s : State) : State := setCauses { s.stu.causes with allstop := true } s

def putSupervision (s : State) : State := setCauses { s.stu.causes with supervision := true } s

def putNoHolder (s : State) : State := setCauses { s.stu.causes with noHolder := true } s

def takeNoHolder (s : State) : State := setCauses { s.stu.causes with noHolder := false } s

def setCab (active : Bool) (s : State) : State := setCauses { s.stu.causes with cab := active } s

def setTerminal (present : Bool) (s : State) : State := setCauses { s.stu.causes with terminal := present } s

/-- What an accepted RELEASE takes out, all three in one event (R129). -/
def releaseCauses (s : State) : State :=
  setCauses { s.stu.causes with radioStop := false, allstop := false, supervision := false } s

/-- Honouring an all-stop (R131), and on a portable steps 2 to 4 of it (R132). -/
def honourAllstop (stamp : Stamp) (s : State) : State :=
  let s := putAllstopCause s
  { s with stu.lastAllstop := some stamp, stu.hold := true, tpt.flags.allstopHeard := true }

/-! ### Outputs -/

/-- R130: asserted exactly when the part is not RUNNING, or the role is locomotive and the cause set is non-empty. -/
def stopdAsserted (s : State) : Bool :=
  decide (s.cfl.part ≠ .running) || (isLocomotive s && !s.stu.causes.isEmpty)

/-- R149: active while at least one unmasked condition holds. -/
def interruptActive (s : State) : Bool :=
  let m := s.tpt.mask
  (m.rcq && !s.asu.rcq.isEmpty) || (m.exq && !s.asu.exq.isEmpty) || (m.rsq && !s.odu.rsq.isEmpty) ||
    (m.causesChanged && s.tpt.flags.causesChanged) || (m.allstopHeard && s.tpt.flags.allstopHeard)

/-- The outputs follow the state in the event that changes it (R130, R149); the transmitter keys while the on-air register holds a
burst (R39). -/
def drivePins (s : State) : State :=
  { s with pins := { stopd := stopdAsserted s, interrupt := interruptActive s, key := s.cau.onAir.isSome } }

/-- The electrical levels of the outputs, true for high (R156): STOPD is asserted low, the open-drain interrupt output is active when
it pulls low. -/
def stopdLineHigh (p : Pins) : Bool := !p.stopd

def interruptLineHigh (p : Pins) : Bool := !p.interrupt

end Sys2Proof.Machine
end

