-- ==== Sys2Proof/Machine/Memory.lean ====
section
/-! DEFINITION. The contents of the 128 buffers of 22 octets (R75) as a canonical list of cells: addresses strictly rising, and no
cell equal to what an unlisted address reads as. -/

namespace Sys2Proof.Machine

/-- What an unlisted address reads as. R83 leaves the contents after a reset undefined: DESIGN CHOICE 0 (log 6). -/
def Memory.unlisted : Byte := 0

/-- The octet at an address. -/
def Memory.read : List Host.Cell → Nat → Byte
  | [], _ => Memory.unlisted
  | (a, v) :: rest, n => if a = n then v else Memory.read rest n

/-- A cell for address n, or nothing if the value is what an unlisted address reads as. -/
def Memory.cell (n : Nat) (v : Byte) : List Host.Cell := if v = Memory.unlisted then [] else [(n, v)]

/-- Write one octet, keeping the canonical form. -/
def Memory.write : List Host.Cell → Nat → Byte → List Host.Cell
  | [], n, v => Memory.cell n v
  | (a, w) :: rest, n, v =>
    if n < a then Memory.cell n v ++ (a, w) :: rest
    else if n = a then Memory.cell n v ++ rest
    else (a, w) :: Memory.write rest n v

/-- The cells have addresses from low up, strictly rising, and none holds the unlisted value. -/
def Memory.wfFrom : Nat → List Host.Cell → Bool
  | _, [] => true
  | low, (a, v) :: rest => decide (low ≤ a) && decide (v ≠ Memory.unlisted) && Memory.wfFrom (a + 1) rest

/-- The canonical form. -/
def Memory.wf (m : List Host.Cell) : Bool := Memory.wfFrom 0 m

/-- The address of octet i of a buffer. -/
def bufferAddress (b : BufferNumber) (i : Nat) : Nat := 22 * b.val + i

/-- Write octets at rising addresses. -/
def Memory.writeAll : List Host.Cell → Nat → List Byte → List Host.Cell
  | m, _, [] => m
  | m, n, v :: rest => Memory.writeAll (Memory.write m n v) (n + 1) rest

/-- A taker writes all 22 octets of a buffer (R75). -/
def writeBuffer (m : List Host.Cell) (b : BufferNumber) (body : List Byte) : List Host.Cell :=
  Memory.writeAll m (bufferAddress b 0) (padTo 22 body)

/-- The 22 octets of a buffer. -/
def readBuffer (m : List Host.Cell) (b : BufferNumber) : List Byte :=
  (List.range 22).map (fun i => Memory.read m (bufferAddress b i))

/-- The octets of several buffers, one after another in list order. -/
def readBuffers (m : List Host.Cell) (buffers : List BufferNumber) : List Byte := buffers.flatMap (readBuffer m)

/-- Write the bodies into the buffers, the first into the first. -/
def writeBuffers : List Host.Cell → List BufferNumber → List (List Byte) → List Host.Cell
  | m, b :: bs, body :: rest => writeBuffers (writeBuffer m b body) bs rest
  | m, _, _ => m

end Sys2Proof.Machine
end

