-- ==== Sys2Proof/Machine/Ops.lean ====
section
/-! DEFINITION. Shared operations over the pool, the Exception Queue, the pace state and the order slots; which counts and timers have
come to their end; the passing of a millisecond; how a meaning ends. -/

namespace Sys2Proof.Machine

/-! ### How a meaning ends -/

/-- The command has its effect: the outputs follow it in the same event. -/
def taken (s : State) : Host.Outcome State Fault Refusal := .next (drivePins s)

/-- The event cannot come in this state and is not taken: nothing changes (log 3). -/
def notTaken (s : State) : Host.Outcome State Fault Refusal := .next s

/-! ### Buffer Pool and Exception Queue -/

/-- Returned buffers join the tail of the Free Buffer List in the order given (R79). -/
def returnBuffers (buffers : List BufferNumber) (s : State) : State := { s with bpl.free := s.bpl.free ++ buffers }

/-- A new entry joins the EXQ at the tail; with 16 there it is discarded and EXQ_OVERFLOW is set (R69). -/
def raiseException (e : ExceptionEntry) (s : State) : State :=
  if s.asu.exq.length < 16 then { s with asu.exq := s.asu.exq ++ [e] } else { s with tpt.flags.exqOverflow := true }

/-- Context i becomes VACANT. -/
def vacate (i : Nat) (s : State) : State := { s with asu.contexts := s.asu.contexts.set i none }

/-- R72: the context's buffers go back in list order and it becomes VACANT. -/
def abandon (i : Nat) (c : Context) (s : State) : State := vacate i (returnBuffers c.buffers s)

/-- The buffers of the ASSEMBLING contexts, by ascending context number, each in list order. -/
def contextBuffers (contexts : List (Option Context)) : List BufferNumber :=
  contexts.flatMap (fun c => (c.map Context.buffers).getD [])

/-- R73: every context VACANT, its buffers returned, no exception. -/
def clearContexts (s : State) : State :=
  let s := returnBuffers (contextBuffers s.asu.contexts) s
  { s with asu.contexts := s.asu.contexts.map (fun _ => none) }

/-! ### Pace -/

/-- R25: R loses its share, clamped at R_MIN. -/
def decreasedRate (c : Config) (r : Nat) : Nat := max c.rMin (r - r / 2 ^ c.decreaseFactor)

def paceDecrease (s : State) : State := { s with cau.rate := decreasedRate s.config s.cau.rate }

/-- R26: R rises by AIR, clamped at R_MAX. -/
def paceIncrease (s : State) : State := { s with cau.rate := min s.config.rMax (s.cau.rate + s.config.increase) }

/-- R30: 256 is given back to C, clamped at 1024. -/
def refundCredit (s : State) : State := { s with cau.credit := min 1024 (s.cau.credit + 256) }

/-- R29: staging an order fragment takes 256 from C. -/
def chargeCredit (s : State) : State := { s with cau.credit := s.cau.credit - 256 }

/-! ### Order slots -/

def orderAt (slot : Nat) (s : State) : Option Order := slotAt s.odu.ool slot

def setSlot (slot : Nat) (o : Option Order) (s : State) : State := { s with odu.ool := s.odu.ool.set slot o }

/-- The fragment place of the order in a slot follows the CAU's event (R92). -/
def setPlace (slot : Nat) (place : FragmentPlace) (s : State) : State :=
  match orderAt slot s with
  | none => s
  | some o => setSlot slot (some { o with place := place }) s

def isSending (o : Order) : Bool := decide (o.state = .sending)

/-- The SENDING order with its slot. -/
def sendingOrder (s : State) : Option (Nat × Order) := findSlot isSending s.odu.ool

/-- A slot is in use, FINISHED orders included (R85). -/
def anySlotInUse (s : State) : Bool := s.odu.ool.any Option.isSome

/-! ### Ends of counts and timers

Each says when the event of that name can come; a meaning takes its event only then (log 3, log 4). -/

def running (s : State) : Bool := decide (s.cfl.part = .running)

/-- R157, R159: a load is under way in CONFIGURING when no reset is held. -/
def loading (s : State) : Bool := decide (s.cfl.part = .configuring) && !s.cfl.resetHeld

/-- R20: the 200th sample of the period has been taken. -/
def paceDue (s : State) : Bool := running s && decide (200 ≤ s.cau.paceSamples)

/-- R37: the gap count has reached 8. -/
def gapDue (s : State) : Bool := running s && decide (s.cau.access = .gap ∧ 8 ≤ s.cau.gapCount)

/-- R38: the slot count has reached 4. -/
def slotDue (s : State) : Bool := running s && decide (s.cau.access = .backoff ∧ 4 ≤ s.cau.slotCount)

/-- R39: the 60th sample in ON_AIR has been taken. -/
def onAirDue (s : State) : Bool := running s && decide (s.cau.access = .onAir ∧ 60 ≤ s.cau.onAirSamples)

/-- A completion that an earlier sample brought waits to be taken; the next sample comes after it (log 4). -/
def sampleWaits (s : State) : Bool := paceDue s || gapDue s || slotDue s || onAirDue s

/-- R51: the force timer of the staged ALLSTOP has run its 20 ms. -/
def forceDue (s : State) : Bool :=
  running s && match s.cau.staging with
    | some st => decide (st.force = .running 0)
    | none => false

/-- R93, R94: the order in the slot is AWAIT_READBACK and its wait timer has run out. -/
def waitDue (slot : Nat) (s : State) : Bool :=
  running s && match orderAt slot s with
    | some o => decide (o.state = .awaitReadback ∧ o.wait = some 0)
    | none => false

/-- R70: 100 ms of the aging period have passed. -/
def agingDue (s : State) : Bool := running s && decide (100 ≤ s.asu.agingMs)

/-- R115: 100 ms of the silence period have passed. -/
def silenceDue (s : State) : Bool := running s && decide (100 ≤ s.tmu.silenceMs)

/-- R116: 100 ms of the presence period have passed. -/
def presenceDue (s : State) : Bool := running s && decide (100 ≤ s.tmu.presenceMs)

/-- R126: an offer is pending and the time counter has come to the offer stamp plus 4000, modulo 65536. -/
def offerDue (s : State) : Bool :=
  running s && match s.tmu.control with
    | .offerPending _ _ stamp => decide (4000 ≤ (s.time - stamp).toNat)
    | _ => false

/-- R133: the hold is in force and the time counter has come to the last-all-stop-heard stamp plus 5000, modulo 65536. -/
def holdDue (s : State) : Bool :=
  running s && s.stu.hold && match s.stu.lastAllstop with
    | some stamp => decide (5000 ≤ (s.time - stamp).toNat)
    | none => false

/-! ### A millisecond passes -/

def ForceTimer.tick : ForceTimer → ForceTimer
  | .running n => .running (n - 1)
  | f => f

def Order.tick (o : Order) : Order := { o with wait := o.wait.map (· - 1) }

/-- The timers that run in RUNNING. -/
def tickTimers (s : State) : State :=
  { s with
    cau.staging := s.cau.staging.map (fun st => { st with force := st.force.tick })
    asu.agingMs := s.asu.agingMs + 1
    odu.ool := s.odu.ool.map (Option.map Order.tick)
    tmu.silenceMs := s.tmu.silenceMs + 1
    tmu.presenceMs := s.tmu.presenceMs + 1 }

/-- One millisecond of the part's clock (R2, log 2): the time counter counts up in every part state, and in RUNNING the timers that
count milliseconds run. -/
def tick (s : State) : State :=
  let s := if running s then tickTimers s else s
  { s with time := s.time + 1 }

end Sys2Proof.Machine
end

