-- ==== Sys2Proof/Machine/Channel.lean ====
section
/-! DEFINITION. The transmitter: composition, staging, the send arbiter, going on air, displacement, withdrawal and all-stop
requests (03). -/

namespace Sys2Proof.Machine

/-- The holder of a locomotive (R118). -/
def Control.holder : Control → Option Station
  | .unheld => none
  | .held h => some h
  | .offerPending h _ _ => some h

/-- A burst of a kind other than CALL, with the header values of R4 and R35. -/
def composeOther (s : State) (kind : BurstKind) (team : Team) (target : Station) (callNumber : CallNumber)
    (flag : PresenceFlag) (body : List Byte) : Burst :=
  { kind := kind, crowded := s.cau.crowded, role := s.config.role, index := 0, last := true, team := team,
    sender := s.config.station, target := target, callNumber := callNumber, confirm := false, presence := flag, body := body }

/-- A CALL fragment of an order (R35): the fragment's buffer holds the whole body, type and L first in fragment 0. -/
def composeFragment (s : State) (o : Order) (index : Nat) : Burst :=
  { kind := .call, crowded := s.cau.crowded || decide (2 ≤ o.attempts), role := s.config.role, index := BitVec.ofNat 3 index,
    last := decide (index + 1 = fragmentCount o.length), team := s.tmu.homeTeam, sender := s.config.station, target := o.target,
    callNumber := o.callNumber, confirm := o.confirm, presence := .normal,
    body := readBuffers s.bpl.memory (o.buffers[index]?).toList }

def composeReadback (s : State) (e : ReadbackEntry) : Burst :=
  composeOther s .readback s.tmu.homeTeam e.sender e.callNumber .normal ([e.callType, e.verdict.toByte] ++ octetsOf e.digest)

def composePresence (s : State) (flag : PresenceFlag) : Burst :=
  composeOther s .presence s.tmu.homeTeam wholeTeam 0 flag (octetsOf (s.tmu.control.holder.getD 0) ++ [s.stu.causes.toByte])

def composeAllstop (s : State) (team : Team) : Burst := composeOther s .allstop team wholeTeam 0 .normal allstopPattern

/-- The 32 octets composed at a staging (R35). -/
def composed (s : State) : Source → List Byte
  | .allstop team => writeBurst (composeAllstop s team)
  | .readback => ((s.odu.rbq.head?).map (fun e => writeBurst (composeReadback s e))).getD []
  | .presence flag => writeBurst (composePresence s flag)
  | .fragment slot index => ((orderAt slot s).map (fun o => writeBurst (composeFragment s o index))).getD []

/-- R42, before crowding. -/
def baseWindow (s : State) : Source → Nat
  | .allstop _ => 1
  | .readback => 4
  | .presence _ => 8
  | .fragment slot _ => min 128 (wBase s.config * 2 ^ (((orderAt slot s).map Order.attempts).getD 1 - 1))

/-- R42: doubled, up to 128, while crowded. -/
def windowOf (s : State) (source : Source) : Nat :=
  if s.cau.crowded then min 128 (2 * baseWindow s source) else baseWindow s source

/-- One advance of the backoff generator (R43). -/
def advanceGenerator (g : BitVec 15) : BitVec 15 :=
  (g <<< 1) ||| (BitVec.ofBool (g.getLsbD 14 ^^ g.getLsbD 13)).setWidth 15

/-- R44: the station number modulo 32768, with 0 replaced by 1. -/
def generatorSeed (station : Station) : BitVec 15 :=
  let g := station.setWidth 15
  if g = 0 then 1 else g

/-- The draw from an advanced generator (R43). The generator is seeded whenever the part is RUNNING (R44), so the last case does not arise. -/
def drawFrom (g : Option (BitVec 15)) (window : Nat) : Nat :=
  match g with
  | some v => v.toNat % window
  | none => 0

/-- What staging a burst does to its source: an order fragment is charged and stands staged (R29, R92). -/
def noteStaged (source : Source) (s : State) : State :=
  match source with
  | .fragment slot _ => setPlace slot .staged (chargeCredit s)
  | _ => s

/-- Staging (R35, R42, R43, R51): compose, fix the window, draw; IDLE moves to GAP with the gap count at 0 (R36). -/
def stage (source : Source) (s : State) : State :=
  let generator := s.cau.generator.map advanceGenerator
  let window := windowOf s source
  let force := match source with
    | .allstop _ => ForceTimer.running 20
    | _ => ForceTimer.none
  let staged : Staged :=
    { burst := composed s source, source := source, window := window, backoff := drawFrom generator window, force := force }
  let cau : Cau := { s.cau with generator := generator, staging := some staged }
  let cau : Cau := if cau.access = .idle then { cau with access := .gap, gapCount := 0, slotCount := 0 } else cau
  noteStaged source { s with cau := cau }

/-- The SENDING order's next fragment, if class 4 is ready (R47): the order has no fragment in either register, C is 256 or more and
the joining gate is open. -/
def readyFragment (s : State) : Option (Nat × Nat) :=
  match sendingOrder s with
  | some (slot, o) =>
    if o.place = .none ∧ 256 ≤ s.cau.credit ∧ s.cau.gateOpen = true then some (slot, o.next) else none
  | none => none

/-- The highest class that is ready (R45). -/
def readyClass (s : State) : Option Source :=
  match s.cau.allstopRequest with
  | some team => some (.allstop team)
  | none =>
    if s.odu.rbq.isEmpty then
      match s.tmu.presenceRequest with
      | some flag => some (.presence flag)
      | none => (readyFragment s).map (fun f => .fragment f.1 f.2)
    else some .readback

/-- A staged ALLSTOP's request is no longer waiting to be staged; its team is in the staged burst. -/
def noteChosen (source : Source) (s : State) : State :=
  match source with
  | .allstop _ => { s with cau.allstopRequest := none }
  | _ => s

/-- In RUNNING the send arbiter, which looks at the end of an event (log 5), fills an empty staging register from the highest class that
is ready, and leaves a full one alone (R45), also one that holds the joining PRESENCE of R163 (DEDUCED, log 17). -/
def arbitrate (s : State) : State :=
  if running s && s.cau.staging.isNone then
    match readyClass s with
    | some source => stage source (noteChosen source s)
    | none => s
  else s

/-- The burst leaves its source as it goes on air (R39). -/
def leaveSource (source : Source) (s : State) : State :=
  match source with
  | .allstop _ => s
  | .readback => { s with odu.rbq := s.odu.rbq.tail }
  | .presence _ => { s with tmu.presenceRequest := none }
  | .fragment slot _ => setPlace slot .onAir s

/-- The staged burst goes on air (R39); a reception in progress is abandoned (R10). -/
def goOnAir (s : State) : State :=
  match s.cau.staging with
  | none => s
  | some st =>
    let cau : Cau := { s.cau with
      staging := none, onAir := some { burst := st.burst, source := st.source }, onAirSamples := 0, access := .onAir,
      gapCount := 0, slotCount := 0 }
    leaveSource st.source { s with cau := cau, rxc.reception := none }

/-- A staged burst that does not go on air goes back to its source: a fragment is refunded and stands nowhere (R30, R49, R92);
the others are where they were. -/
def giveBack (source : Source) (s : State) : State :=
  match source with
  | .fragment slot _ => setPlace slot .none (refundCredit s)
  | _ => s

/-- The staging register is emptied by a withdrawal (R36). -/
def emptyStaging (s : State) : State :=
  let cau : Cau := { s.cau with staging := none }
  let cau : Cau := if cau.access = .gap ∨ cau.access = .backoff then { cau with access := .idle, gapCount := 0, slotCount := 0 } else cau
  { s with cau := cau }

/-- R50: the owner withdraws the staged burst if it is one of those meant. -/
def withdraw (meant : Source → Bool) (s : State) : State :=
  match s.cau.staging with
  | some st => if meant st.source then giveBack st.source (emptyStaging s) else s
  | none => s

def isReadbackSource : Source → Bool
  | .readback => true
  | _ => false

def isPresenceSource : Source → Bool
  | .presence _ => true
  | _ => false

def isFragmentOf (slot : Nat) : Source → Bool
  | .fragment n _ => decide (n = slot)
  | _ => false

/-- R48: requests for the same team stay that team's, others become yard-wide. -/
def mergeTeams (a b : Team) : Team := if a = b then a else 0

/-- R48: the merged ALLSTOP's header and CRC are recomposed with the team; window, B and force timer are kept. -/
def retag (st : Staged) (team : Team) : Staged :=
  let covered := (st.burst.take 30).set 1 team
  { st with burst := covered ++ octetsOf (crc covered), source := .allstop team }

/-- R49: an ALLSTOP displaces the staged burst of another kind, which goes back to its source; the access state is kept, but in BACKOFF
with a new draw of 0 the ALLSTOP goes on air at once. -/
def displace (old : Staged) (team : Team) (s : State) : State :=
  let s := stage (.allstop team) (giveBack old.source s)
  match s.cau.staging with
  | some st => if s.cau.access = .backoff ∧ st.backoff = 0 then goOnAir s else s
  | none => s

/-- How a command that may empty the staging register or make a class ready ends. -/
def takenAndArbitrated (s : State) : Host.Outcome State Fault Refusal := taken (arbitrate s)

/-- An ALLSTOP request arrives at the CAU (R48, R49). -/
def requestAllstop (team : Team) (s : State) : State :=
  match s.cau.allstopRequest with
  | some held => { s with cau.allstopRequest := some (mergeTeams held team) }
  | none =>
    match s.cau.staging with
    | none => { s with cau.allstopRequest := some team }
    | some st =>
      match st.source with
      | .allstop held => if held = team then s else { s with cau.staging := some (retag st (mergeTeams held team)) }
      | _ => displace st team s

end Sys2Proof.Machine
end

