-- ==== Sys2Proof/Machine/Orders.lean ====
section
/-! DEFINITION. The Order Unit: which order sends, read-back sets, completions, arriving read-backs, finishing, and the Read-back Queue (06). -/

namespace Sys2Proof.Machine

/-- The QUEUED order with the lowest submission sequence, with its slot counted from n (R90). -/
def oldestQueuedFrom : Nat → List (Option Order) → Option (Nat × Order)
  | _, [] => none
  | n, none :: rest => oldestQueuedFrom (n + 1) rest
  | n, some o :: rest =>
    let best := oldestQueuedFrom (n + 1) rest
    if o.state = .queued then
      match best with
      | some (m, p) => if p.sequence < o.sequence then some (m, p) else some (n, o)
      | none => some (n, o)
    else best

def oldestQueued (s : State) : Option (Nat × Order) := oldestQueuedFrom 0 s.odu.ool

/-- A locomotive entry that is ACTIVE or FADING (R91). -/
def expectedToRead (p : Peer) : Bool := decide (p.role = .locomotive ∧ p.link ≠ .lost)

/-- The read-back set fixed at the first attempt (R91); peers stand in ascending station order. -/
def readbackSet (o : Order) (s : State) : List Member :=
  if o.confirm = false then []
  else if o.target = wholeTeam then ((s.tmu.peers.filter expectedToRead).take 6).map (fun p => { station := p.station, answer := none })
  else [{ station := o.target, answer := none }]

/-- R90: what becoming SENDING does to an order. -/
def becomeSending (o : Order) (s : State) : Order :=
  { o with state := .sending, attempts := o.attempts + 1, next := 0, place := .none,
           members := if o.attempts = 0 then readbackSet o s else o.members }

/-- R90: with no order SENDING, the oldest QUEUED order becomes SENDING. -/
def promote (s : State) : State :=
  match sendingOrder s with
  | some _ => s
  | none =>
    match oldestQueued s with
    | some (slot, o) => setSlot slot (some (becomeSending o s)) s
    | none => s

/-- The members marked answered, with the verdicts first taken from them (R102). -/
def answeredMembers (members : List Member) : List (Station × Verdict) :=
  members.filterMap (fun m => m.answer.map (fun v => (m.station, v)))

/-- R102, for an order that is FINISHED. -/
def resultOf (slot : Nat) (o : Order) : ResultRecord :=
  { slot := slot, callNumber := o.callNumber, callType := o.callType, target := o.target, outcome := o.outcome.getD .done,
    attempts := o.attempts, answered := answeredMembers o.members, finishStamp := o.finishStamp.getD 0 }

/-- R101 steps 1 and 3: the order as FINISHED; it holds no buffers and its timer is cancelled. Its fragment place becomes none, also where
its fragment is still on air: R92 follows the SENDING order's place alone and R101 does not name it (DESIGN CHOICE, log 16). -/
def finished (o : Order) (outcome : OrderOutcome) (stamp : Stamp) : Order :=
  { o with state := .finished, outcome := some outcome, finishStamp := some stamp, cancelPending := false, wait := none, buffers := [],
           place := .none }

/-- R101 step 4, R103: the result joins the RSQ and the slot empties, or the order stays FINISHED in its slot. -/
def offerResult (slot : Nat) (o : Order) (s : State) : State :=
  if s.odu.rsq.length < 8 then setSlot slot none { s with odu.rsq := s.odu.rsq ++ [resultOf slot o] }
  else setSlot slot (some o) { s with odu.finishedSlots := s.odu.finishedSlots ++ [slot] }

/-- R101: an order finishes. A staged fragment is withdrawn with refund, the buffers return, the result is offered, and the oldest
QUEUED order becomes SENDING if none is. -/
def finishOrder (slot : Nat) (outcome : OrderOutcome) (s : State) : State :=
  match orderAt slot s with
  | none => s
  | some o =>
    let s := if o.place = .staged then withdraw (isFragmentOf slot) s else s
    let s := returnBuffers o.buffers s
    promote (offerResult slot (finished o outcome s.time) s)

def allAnswered (members : List Member) : Bool := members.all (fun m => m.answer.isSome)

def anyAnswered (members : List Member) : Bool := members.any (fun m => m.answer.isSome)

/-- R97: every answer ACCEPTED, every answer a refusal, or some of each. -/
def answersOutcome (members : List Member) : OrderOutcome :=
  if members.all (fun m => decide (m.answer = some .accepted)) then .done
  else if members.all (fun m => decide (m.answer ≠ some .accepted)) then .refused
  else .partial_

/-- R93, in ms. -/
def readbackWait (c : Config) (members : List Member) : Nat := readbackBase c + 40 * members.length

/-- R93: the on-air completion of an attempt's last fragment. -/
def endAttempt (slot : Nat) (o : Order) (s : State) : State :=
  if o.confirm = false then finishOrder slot .done s
  else if o.members.isEmpty then finishOrder slot .noPeers s
  else if allAnswered o.members then finishOrder slot (answersOutcome o.members) s
  else promote (setSlot slot (some { o with state := .awaitReadback, wait := some (readbackWait s.config o.members) }) s)

/-- R92: the CAU reports the on-air completion of a fragment with slot and index. -/
def fragmentCompleted (slot index : Nat) (s : State) : State :=
  match orderAt slot s with
  | none => s
  | some o =>
    if o.state = .sending ∧ o.place = .onAir ∧ o.next = index then
      let o : Order := { o with place := .none }
      let s := setSlot slot (some o) s
      if o.cancelPending then finishOrder slot .cancelled s
      else if index + 1 < fragmentCount o.length then setSlot slot (some { o with next := index + 1 }) s
      else endAttempt slot o s
    else s

/-- R94: the read-back wait timer of an order expires. -/
def waitExpired (slot : Nat) (s : State) : State :=
  match orderAt slot s with
  | none => s
  | some o =>
    if o.attempts < s.config.attemptLimit then
      promote (setSlot slot (some { o with state := .queued, wait := none }) (paceDecrease s))
    else finishOrder slot (if anyAnswered o.members then .partial_ else .failed) s

/-- An order is live while it is not FINISHED (R85). -/
def liveWith (number : CallNumber) (o : Order) : Bool := decide (o.callNumber = number ∧ o.state ≠ .finished)

/-- The station is a member not yet answered (R96). -/
def unansweredMember (station : Station) (o : Order) : Bool :=
  o.members.any (fun m => decide (m.station = station ∧ m.answer = none))

def markAnswered (station : Station) (v : Verdict) (members : List Member) : List Member :=
  members.map (fun m => if m.station = station ∧ m.answer = none then { m with answer := some v } else m)

/-- R97: a matched read-back. -/
def memberAnswered (slot : Nat) (o : Order) (station : Station) (v : Verdict) (s : State) : State :=
  let o : Order := { o with members := markAnswered station v o.members }
  let s := setSlot slot (some o) (if v = .accepted then paceIncrease s else s)
  if allAnswered o.members then finishOrder slot (answersOutcome o.members) s else s

/-- R96: a READBACK addressed to this station. The call type in it is not compared. -/
def readbackArrived (b : Burst) (s : State) : State :=
  match findSlot (liveWith b.callNumber) s.odu.ool, Verdict.ofByte (octetAt b.body 1) with
  | some (slot, o), some v =>
    if unansweredMember b.sender o && decide (wordAt b.body 2 = o.digest) then memberAnswered slot o b.sender v s else countStray s
  | _, _ => countStray s

/-- R99: an accepted CANCEL ORDER for the order in a slot. -/
def cancelOrder (slot : Nat) (o : Order) (s : State) : State :=
  if o.state = .sending ∧ o.place = .onAir then setSlot slot (some { o with cancelPending := true }) s
  else finishOrder slot .cancelled s

/-- R103: once room is made in the RSQ, the result of the order that finished earliest joins it and its slot empties. -/
def moveHeldResult (s : State) : State :=
  match s.odu.finishedSlots with
  | [] => s
  | slot :: rest =>
    let s := { s with odu.finishedSlots := rest }
    match orderAt slot s with
    | some o => setSlot slot none { s with odu.rsq := s.odu.rsq ++ [resultOf slot o] }
    | none => s

/-- A number is held by an order in the OOL (R86). -/
def numberInUse (number : CallNumber) (s : State) : Bool :=
  s.odu.ool.any (fun x => x.any (fun o => decide (o.callNumber = number)))

/-- R86: the counter goes up past numbers held in the OOL; at most seven are passed over. -/
def freeNumber : Nat → CallNumber → State → CallNumber
  | 0, number, _ => number
  | n + 1, number, s => if numberInUse number s then freeNumber n (number + 1) s else number

/-- The call number that the next accepted order takes (R86). -/
def nextNumber (s : State) : CallNumber := freeNumber 8 s.odu.callNumber s

/-- The octet sequence of a call: type, length, data (R61). -/
def callOctets (callType : Byte) (length : Nat) (data : List Byte) : List Byte := callType :: octet length :: data.take length

/-- R89: the order made from a submission. -/
def newOrder (sub : Submission) (s : State) : Order :=
  { sequence := s.odu.nextSequence, callNumber := nextNumber s, callType := sub.callType, target := sub.target, confirm := sub.confirm,
    length := sub.length, digest := digest (callOctets sub.callType sub.length sub.data),
    buffers := s.bpl.free.take (fragmentCount sub.length), next := 0, place := .none, attempts := 0, state := .queued, members := [],
    cancelPending := false, outcome := none, finishStamp := none, wait := none }

/-- R89: an accepted submission takes a slot, a number, a sequence value and F(L) buffers, and becomes SENDING if no order is. -/
def acceptOrder (slot : Nat) (sub : Submission) (s : State) : State :=
  let o := newOrder sub s
  let count := fragmentCount sub.length
  let s := { s with
    bpl.free := s.bpl.free.drop count
    bpl.memory := writeBuffers s.bpl.memory o.buffers (bodies count (callOctets sub.callType sub.length sub.data))
    odu.callNumber := o.callNumber + 1
    odu.nextSequence := s.odu.nextSequence + 1 }
  promote (setSlot slot (some o) s)

/-- R104: the offer is dropped if the RBQ holds one for the same sender and call number, or is full. -/
def offerReadback (e : ReadbackEntry) (s : State) : State :=
  if s.odu.rbq.any (fun x => decide (x.sender = e.sender ∧ x.callNumber = e.callNumber)) then s
  else if 8 ≤ s.odu.rbq.length then s
  else { s with odu.rbq := s.odu.rbq ++ [e] }

/-- R105: the RBQ is emptied, and a staged READBACK withdrawn. -/
def emptyReadbacks (s : State) : State := withdraw isReadbackSource { s with odu.rbq := [] }

end Sys2Proof.Machine
end

