-- ==== Sys2Proof/Machine/Teams.lean ====
section
/-! DEFINITION. The Team Unit: the peer table, presence requests, control of a locomotive, verdicts and overheard calls (07). -/

namespace Sys2Proof.Machine

/-! ### Peer table -/

def findPeer (station : Station) (s : State) : Option Peer := s.tmu.peers.find? (fun p => decide (p.station = station))

def updatePeer (station : Station) (f : Peer → Peer) (s : State) : State :=
  { s with tmu.peers := s.tmu.peers.map (fun p => if p.station = station then f p else p) }

def removePeer (station : Station) (s : State) : State :=
  { s with tmu.peers := s.tmu.peers.filter (fun p => decide (p.station ≠ station)) }

/-- The table is kept in ascending order of station number, as READ PEERS returns it (R152). -/
def insertPeer (p : Peer) : List Peer → List Peer
  | [] => [p]
  | q :: rest => if p.station.toNat < q.station.toNat then p :: q :: rest else q :: insertPeer p rest

def newPeer (b : Burst) (stamp : Stamp) : Peer :=
  { station := b.sender, role := b.role, link := .active, silence := 0, lastHeard := stamp, reportedHolder := none,
    reportedCauses := none, lastDelivered := none }

/-- Of two candidates for eviction the one with the greater silence count, and of equal counts the lower station number, which
stands first (R112). -/
def laterCandidate (best : Option Peer) (p : Peer) : Option Peer :=
  match best with
  | some q => if q.silence < p.silence then some p else some q
  | none => some p

/-- R112: the LOST entries less the holder on a locomotive. -/
def evictable (s : State) (p : Peer) : Bool :=
  decide (p.link = .lost) && !(isLocomotive s && decide (s.tmu.control.holder = some p.station))

def evictionCandidate (s : State) : Option Peer := (s.tmu.peers.filter (evictable s)).foldl laterCandidate none

def addPeer (p : Peer) (s : State) : State := { s with tmu.peers := insertPeer p s.tmu.peers }

/-- R112: a sender without an entry is entered, in the place of an evicted entry if the table holds 16. -/
def enterPeer (b : Burst) (stamp : Stamp) (s : State) : State :=
  if s.tmu.peers.length < 16 then addPeer (newPeer b stamp) s
  else
    match evictionCandidate s with
    | some p => addPeer (newPeer b stamp) (removePeer p.station s)
    | none => { s with tpt.flags.peerTableFull := true }

/-- On a locomotive the control state becomes UNHELD, any offer is dropped with its timer, and NO_HOLDER goes in (R118). -/
def makeUnheld (s : State) : State :=
  if isLocomotive s then putNoHolder { s with tmu.control := .unheld } else s

/-- For a kind other than PRESENCE the presence flag is handed as normal (R14). -/
def handedFlag (b : Burst) : PresenceFlag := if b.kind = .presence then b.presence else .normal

/-- R113: the presence flag acts on the entry after its refresh or creation. -/
def actOnFlag (b : Burst) (s : State) : State :=
  match handedFlag b with
  | .normal => s
  | .joining => updatePeer b.sender (fun p => { p with lastDelivered := none }) s
  | .leaving =>
    let s := removePeer b.sender s
    if s.tmu.control.holder = some b.sender then makeUnheld s else s

def refreshPeer (stamp : Stamp) (p : Peer) : Peer := { p with silence := 0, link := .active, lastHeard := stamp }

/-- The first step of taking a good home-team burst (R112, R113). -/
def peerStep (b : Burst) (stamp : Stamp) (s : State) : State :=
  match findPeer b.sender s with
  | some _ => actOnFlag b (updatePeer b.sender (refreshPeer stamp) s)
  | none => if handedFlag b = .leaving then s else actOnFlag b (enterPeer b stamp s)

/-- The second step of a PRESENCE burst (R113): a locomotive entry takes the reported holder and causes. -/
def presenceBody (b : Burst) (s : State) : State :=
  updatePeer b.sender
    (fun p => if p.role = .locomotive then
      { p with reportedHolder := some (wordAt b.body 0), reportedCauses := some (Causes.ofByte (octetAt b.body 2)) } else p) s

/-- R114. -/
def storeDelivered (station : Station) (d : Delivered) (s : State) : State :=
  updatePeer station (fun p => { p with lastDelivered := some d }) s

/-! ### Presence -/

/-- A joining or leaving request replaces an outstanding one; a staged PRESENCE is withdrawn (R117, R50). -/
def requestPresence (flag : PresenceFlag) (s : State) : State :=
  withdraw isPresenceSource { s with tmu.presenceRequest := some flag }

/-- R109 steps 2 to 4: the peer table is emptied, a locomotive becomes UNHELD, contexts and RBQ are cleared. -/
def clearTeam (s : State) : State := emptyReadbacks (clearContexts (makeUnheld { s with tmu.peers := [] }))

/-- R110: the leaving PRESENCE of the pending leave has completed on air. -/
def completeLeave (s : State) : State :=
  let s := clearTeam s
  { s with tmu.leavePending := false, tmu.attached := false, tmu.presenceCount := 0 }

/-- The CAU reports the on-air completion of a PRESENCE with its flag (R117). A leaving PRESENCE completes the leave if the leave is
pending and its own request is no longer outstanding (log 10). -/
def presenceCompleted (flag : PresenceFlag) (s : State) : State :=
  match flag with
  | .normal => s
  | .joining => { s with cau.gateOpen := true }
  | .leaving => if s.tmu.leavePending ∧ s.tmu.presenceRequest ≠ some .leaving then completeLeave s else s

/-- R116: a presence timer expiry. -/
def presenceExpired (s : State) : State :=
  if s.tmu.attached then
    let count := min (presenceInterval s.config) (s.tmu.presenceCount + 1)
    let s := { s with tmu.presenceCount := count }
    if count = presenceInterval s.config ∧ s.tmu.leavePending = false ∧ s.tmu.presenceRequest = none then
      { s with tmu.presenceRequest := some .normal }
    else s
  else { s with tmu.presenceCount := 0 }

/-! ### Silence -/

/-- R115: one more 100 ms of silence, stopping at 255, and the link state it leaves. -/
def silentPeer (c : Config) (p : Peer) : Peer :=
  let silence := min 255 (p.silence + 1)
  let faded := if p.link = .active ∧ fadeLimit c ≤ silence then LinkState.fading else p.link
  let link := if faded ≠ .lost ∧ supervisionLimit c ≤ silence then LinkState.lost else faded
  { p with silence := silence, link := link }

/-- This expiry makes the entry LOST (R123). -/
def goesLost (c : Config) (p : Peer) : Bool := decide (p.link ≠ .lost ∧ (silentPeer c p).link = .lost)

/-- R115, R123: on a locomotive the holder's entry going LOST puts SUPERVISION in the cause set. -/
def silenceExpired (s : State) : State :=
  let lost := s.tmu.peers.any (fun p => goesLost s.config p && decide (s.tmu.control.holder = some p.station))
  let s := { s with tmu.peers := s.tmu.peers.map (silentPeer s.config) }
  if lost then putSupervision s else s

/-! ### Control -/

def isHolder (station : Station) (s : State) : Bool := decide (s.tmu.control.holder = some station)

/-- A portable becomes holder (R121). -/
def makeHolder (station : Station) (s : State) : State := { s with tmu.control := .held station }

/-- R119. -/
def moveVerdict (sender : Station) (s : State) : Verdict :=
  if !isHolder sender s then .refusedNotHolder else if s.stu.causes.isEmpty then .accepted else .refusedStopped

/-- R120. -/
def releaseVerdict (sender : Station) (s : State) : Verdict :=
  if !isHolder sender s then .refusedNotHolder else if s.stu.hold then .refusedTooSoon else .accepted

/-- R121, its rows in order. -/
def takeVerdict (sender : Station) (s : State) : Verdict × State :=
  match findPeer sender s with
  | none => (.refusedNoRoom, s)
  | some p =>
    if p.role = .locomotive then (.refusedNoOffer, s)
    else
      match s.tmu.control with
      | .unheld => (.accepted, takeNoHolder (makeHolder sender s))
      | .held holder => if holder = sender then (.accepted, s) else (.refusedNoOffer, s)
      | .offerPending holder offered _ =>
        if holder = sender then (.accepted, s)
        else if offered = sender then (.accepted, makeHolder sender s)
        else (.refusedNoOffer, s)

/-- R122. -/
def relinquishVerdict (sender : Station) (s : State) : Verdict × State :=
  if isHolder sender s then (.accepted, makeUnheld s) else (.refusedNotHolder, s)

/-- R63: the verdict of a completed call and the state with its effects applied. -/
def decideVerdict (sender : Station) (callType : Byte) (s : State) : Verdict × State :=
  if isLocomotive s then
    match CallType.ofByte callType with
    | some .move => (moveVerdict sender s, s)
    | some .countdown => (moveVerdict sender s, s)
    | some .stop => (.accepted, putRadioStop s)
    | some .release =>
      let v := releaseVerdict sender s
      (v, if v = .accepted then releaseCauses s else s)
    | some .handoverTake => takeVerdict sender s
    | some .relinquish => relinquishVerdict sender s
    | _ => (.accepted, s)
  else (.accepted, s)

/-- The part-acted calls of R63. -/
def partActed (callType : Byte) (s : State) : Bool :=
  isLocomotive s &&
    match CallType.ofByte callType with
    | some .stop => true
    | some .release => true
    | some .handoverTake => true
    | some .relinquish => true
    | _ => false

/-- R124: an overheard offer from the holder is recorded, or replaces the pending one. -/
def overheardOffer (sender target : Station) (stamp : Stamp) (s : State) : State :=
  if isHolder sender s then { s with tmu.control := .offerPending sender target stamp } else s

/-- R124, R125: a whole one-fragment call addressed to another station. -/
def overheardCall (sender target : Station) (callType : Byte) (stamp : Stamp) (s : State) : State :=
  if isLocomotive s then
    match CallType.ofByte callType with
    | some .handoverOffer => overheardOffer sender target stamp s
    | some .stop => if s.config.ganged then putRadioStop s else s
    | _ => s
  else s

/-- R126: a pending offer lapses. -/
def offerLapsed (s : State) : State :=
  match s.tmu.control with
  | .offerPending holder _ _ => { s with tmu.control := .held holder }
  | _ => s

end Sys2Proof.Machine
end

