-- ==== Sys2Proof/Machine/Assembly.lean ====
section
/-! DEFINITION. The Assembly Unit: fragments, completion, duplicates, delivery and aging (04). -/

namespace Sys2Proof.Machine

def exceptionFor (code : ExceptionCode) (sender : Station) (number : CallNumber) (index : Nat) (stamp : Stamp) : ExceptionEntry :=
  { code := code, sender := sender, callNumber := number, index := index, stamp := stamp }

/-- The ASSEMBLING context of a sender, with its number (R55). -/
def contextOf (sender : Station) (s : State) : Option (Nat × Context) :=
  findSlot (fun c => decide (c.sender = sender)) s.asu.contexts

/-- The ASSEMBLING context of a sender and call number (R57). -/
def contextFor (sender : Station) (number : CallNumber) (s : State) : Option (Nat × Context) :=
  findSlot (fun c => decide (c.sender = sender ∧ c.callNumber = number)) s.asu.contexts

def setContext (i : Nat) (c : Context) (s : State) : State := { s with asu.contexts := s.asu.contexts.set i (some c) }

/-! ### Completion -/

/-- R61: type, L and the L data octets, read from the call's buffers in list order. -/
def callDigest (c : Context) (s : State) : Digest :=
  digest (callOctets c.callType c.length ((readBuffers s.bpl.memory c.buffers).drop 2))

/-- R66: on a locomotive, whether the sender is the holder after the call's own effects. -/
def fromHolder (sender : Station) (s : State) : Bool := isLocomotive s && isHolder sender s

/-- R66, with the state after the call's own effects. -/
def recordOf (c : Context) (lastStamp : Stamp) (s : State) : CallRecord :=
  { sender := c.sender, senderRole := c.senderRole, target := c.target, callNumber := c.callNumber, callType := c.callType,
    length := c.length, buffers := c.buffers, firstStamp := c.firstStamp, lastStamp := lastStamp, confirm := c.confirm,
    fromHolder := fromHolder c.sender s, crowdedSeen := c.crowdedSeen, verdict := .accepted }

def readbackFor (c : Context) (d : Digest) (v : Verdict) : ReadbackEntry :=
  { sender := c.sender, callNumber := c.callNumber, callType := c.callType, digest := d, verdict := v }

/-- A read-back is offered when the confirm flag is set (R62, R64, R65). -/
def offerIfConfirm (c : Context) (d : Digest) (v : Verdict) (s : State) : State :=
  if c.confirm then offerReadback (readbackFor c d v) s else s

def rememberDelivered (c : Context) (d : Digest) (v : Verdict) (s : State) : State :=
  storeDelivered c.sender { callNumber := c.callNumber, digest := d, verdict := v } s

def rcqHasRoom (s : State) : Bool := decide (s.asu.rcq.length < 16)

/-- The record joins the RCQ at the tail; its buffers pass from the context to the record (R64, R65). -/
def placeRecord (i : Nat) (c : Context) (lastStamp : Stamp) (s : State) : State :=
  vacate i { s with asu.rcq := s.asu.rcq ++ [recordOf c lastStamp s] }

/-- The RCQ is full: RCQ_FULL, and the buffers go back (R64, R65). -/
def turnAway (i : Nat) (c : Context) (index : Nat) (stamp : Stamp) (s : State) : State :=
  abandon i c (raiseException (exceptionFor .rcqFull c.sender c.callNumber index stamp) s)

/-- R64: a part-acted call after its verdict. -/
def deliverPartActed (i : Nat) (c : Context) (d : Digest) (v : Verdict) (index : Nat) (stamp : Stamp) (s : State) : State :=
  let s := rememberDelivered c d v (offerIfConfirm c d v s)
  if v = .accepted then
    if rcqHasRoom s then placeRecord i c stamp s else turnAway i c index stamp s
  else abandon i c s

/-- R65: a processor-acted call after its verdict. -/
def deliverProcessorActed (i : Nat) (c : Context) (d : Digest) (v : Verdict) (index : Nat) (stamp : Stamp) (s : State) : State :=
  if v = .accepted then
    if rcqHasRoom s then rememberDelivered c d v (offerIfConfirm c d v (placeRecord i c stamp s))
    else turnAway i c index stamp s
  else abandon i c (rememberDelivered c d v (offerIfConfirm c d v s))

/-- R62: the verdict of the sender's last-delivered record, if it names this call. -/
def duplicateVerdict (c : Context) (d : Digest) (s : State) : Option Verdict :=
  match (findPeer c.sender s).bind Peer.lastDelivered with
  | some r => if r.callNumber = c.callNumber ∧ r.digest = d then some r.verdict else none
  | none => none

/-- R62: a completed duplicate. -/
def completeDuplicate (i : Nat) (c : Context) (d : Digest) (v : Verdict) (s : State) : State :=
  let s := offerIfConfirm c d v (countDuplicate (abandon i c s))
  if CallType.ofByte c.callType = some .stop then putRadioStop s else s

/-- R63 to R65: verdict, effects, delivery. -/
def completeNew (i : Nat) (c : Context) (d : Digest) (index : Nat) (stamp : Stamp) (s : State) : State :=
  let acted := partActed c.callType s
  let decided := decideVerdict c.sender c.callType s
  if acted then deliverPartActed i c d decided.1 index stamp decided.2
  else deliverProcessorActed i c d decided.1 index stamp decided.2

/-- Completion (R60 to R65) of the whole call in context i, whose final fragment has this index and stamp. -/
def completeCall (i : Nat) (c : Context) (index : Nat) (stamp : Stamp) (s : State) : State :=
  if c.buffers.length ≠ fragmentCount c.length then
    abandon i c (raiseException (exceptionFor .lengthMismatch c.sender c.callNumber index stamp) s)
  else
    let d := callDigest c s
    match duplicateVerdict c d s with
    | some v => completeDuplicate i c d v s
    | none => completeNew i c d index stamp s

/-! ### Fragments -/

/-- The context that fragment 0 makes (R53, R56), with its one buffer. -/
def contextFrom (b : Burst) (buffer : BufferNumber) (stamp : Stamp) : Context :=
  { sender := b.sender, senderRole := b.role, callNumber := b.callNumber, target := b.target, callType := octetAt b.body 0,
    length := (octetAt b.body 1).toNat, confirm := b.confirm, next := 1, buffers := [buffer], crowdedSeen := b.crowded,
    firstStamp := stamp, age := 0 }

/-- The head of the Free Buffer List is taken and the body copied into it (R78, R75). -/
def takeBuffer (buffer : BufferNumber) (body : List Byte) (s : State) : State :=
  { s with bpl.free := s.bpl.free.tail, bpl.memory := writeBuffer s.bpl.memory buffer body }

/-- R56: a new call starts from fragment 0. -/
def startCall (b : Burst) (stamp : Stamp) (s : State) : State :=
  match firstEmpty s.asu.contexts with
  | none => raiseException (exceptionFor .noContext b.sender b.callNumber 0 stamp) s
  | some i =>
    match s.bpl.free with
    | [] => raiseException (exceptionFor .noBuffer b.sender b.callNumber 0 stamp) s
    | buffer :: _ =>
      let s := takeBuffer buffer b.body s
      let c := contextFrom b buffer stamp
      if CallType.ofByte c.callType = none then
        returnBuffers [buffer] (raiseException (exceptionFor .badType b.sender b.callNumber 0 stamp) s)
      else if b.last then completeCall i c 0 stamp s
      else setContext i c s

/-- R55: fragment 0 for this station or the team. -/
def fragmentZero (b : Burst) (stamp : Stamp) (s : State) : State :=
  match contextOf b.sender s with
  | some (i, c) =>
    if c.callNumber = b.callNumber then countDuplicate s
    else startCall b stamp (abandon i c (raiseException (exceptionFor .superseded c.sender c.callNumber c.next stamp) s))
  | none => startCall b stamp s

/-- R58: the fragment that the context waits for. -/
def takeInOrder (i : Nat) (c : Context) (b : Burst) (index : Nat) (stamp : Stamp) (s : State) : State :=
  if index = 7 ∧ b.last = false then
    abandon i c (raiseException (exceptionFor .lengthMismatch c.sender c.callNumber 7 stamp) s)
  else
    match s.bpl.free with
    | [] => abandon i c (raiseException (exceptionFor .noBuffer c.sender c.callNumber index stamp) s)
    | buffer :: _ =>
      let s := takeBuffer buffer b.body s
      let c : Context := { c with buffers := c.buffers ++ [buffer], age := 0, crowdedSeen := c.crowdedSeen || b.crowded }
      if b.last then completeCall i c index stamp s else setContext i { c with next := c.next + 1 } s

/-- R57: a fragment of index 1..7 for this station or the team. -/
def laterFragment (b : Burst) (index : Nat) (stamp : Stamp) (s : State) : State :=
  match contextFor b.sender b.callNumber s with
  | none => countOrphan s
  | some (i, c) =>
    if index < c.next then countDuplicate s
    else if c.next < index then
      abandon i c (raiseException (exceptionFor .outOfOrder c.sender c.callNumber index stamp) s)
    else takeInOrder i c b index stamp s

/-- R54, R59: a CALL burst of the home team. -/
def callArrived (b : Burst) (stamp : Stamp) (s : State) : State :=
  if b.target = s.config.station ∨ b.target = wholeTeam then
    if b.index = 0 then fragmentZero b stamp s else laterFragment b b.index.toNat stamp s
  else if b.index = 0 ∧ b.last = true then overheardCall b.sender b.target (octetAt b.body 0) stamp s
  else s

/-! ### Aging -/

/-- R70, R71: one context at an aging expiry. -/
def ageContext (i : Nat) (s : State) : State :=
  match slotAt s.asu.contexts i with
  | none => s
  | some c =>
    if agingLimit s.config ≤ c.age + 1 then
      abandon i c (raiseException (exceptionFor .agedOut c.sender c.callNumber c.next s.time) s)
    else setContext i { c with age := c.age + 1 } s

/-- R71: the contexts are aged in ascending order of context number. -/
def ageContexts (s : State) : State := (List.range s.asu.contexts.length).foldl (fun s i => ageContext i s) s

end Sys2Proof.Machine
end

