-- ==== Sys2Proof/Machine/Startup.lean ====
section
/-! DEFINITION. RESET, RESET_END, CONFIG_OCTET_READ, NO_MEMORY; entry to RUNNING and the RESTART steps (10). -/

namespace Sys2Proof.Machine

/-- R158: every block takes its reset values. The filters of the two inputs run through the reset (R156), and the queue of commands is
not the part's. -/
def resetTaken (s : State) : State :=
  { State.reset with
    stu := { Stu.reset with cabInput := s.stu.cabInput, keyInput := s.stu.keyInput }
    pending := s.pending }

/-- R159: a load begins with the fault code NONE and nothing in the holding area. -/
def beginLoad (s : State) : State :=
  { s with cfl := { part := .configuring, resetHeld := false, fault := .none, holding := [], inForce := none } }

/-- R162: the load ends with a fault and the part is HALTED. -/
def endLoadFault (fault : FaultCode) (s : State) : State :=
  { s with cfl := { part := .halted, resetHeld := false, fault := fault, holding := [], inForce := none } }

/-- R33, R52, middle columns: the CAU at entry to RUNNING, with the generator seeded if it is unseeded (R44). -/
def cauAtEntry (c : Config) (old : Cau) : Cau :=
  { Cau.reset with
    rate := c.rInit, credit := 256, generator := some (old.generator.getD (generatorSeed c.station)) }

/-- R140: the cause set formed from the role, with CAB added if the cab-stop input stands active on a locomotive. -/
def causesFormed (role : Role) (cabInput : Bool) : Causes :=
  match role with
  | .locomotive => { noHolder := true, cab := cabInput }
  | .portable => {}

/-- R163: the checked fields become the configuration in force, and every block takes its entry values. -/
def enterRunning (c : Config) (s : State) : State :=
  { s with
    cfl := { part := .running, resetHeld := false, fault := .none, holding := [], inForce := some c }
    cau := cauAtEntry c s.cau
    asu := Asu.reset
    bpl := { s.bpl with free := List.finRange 128, held := [] }
    odu := { Odu.reset with callNumber := s.odu.callNumber }
    tmu := { Tmu.reset with attached := true, homeTeam := c.homeTeam, presenceRequest := some .joining }
    stu := { Stu.reset with
      causes := causesFormed c.role s.stu.cabInput, cabInput := s.stu.cabInput, keyInput := s.stu.keyInput }
    tpt := { s.tpt with flags := {}, range := some (c.rangeLow, c.rangeHigh) } }

/-- R160 to R162: the checks that follow the 24th octet. -/
def checkBlock (block : List Byte) (s : State) : State :=
  if !blockDigestGood block then endLoadFault .badDigest s
  else
    match firstBadField block with
    | some offset => endLoadFault (.badField offset) s
    | none => enterRunning (readConfig block) s

/-- R159: an octet enters the holding area; the checks follow the 24th in the same event. -/
def octetRead (x : Byte) (s : State) : State :=
  let block := s.cfl.holding ++ [x]
  if block.length = 24 then checkBlock block s else { s with cfl.holding := block }

/-- R165: every block takes its RESTART step; the part stays RUNNING. NO_HOLDER goes in before the flags are cleared (R141). -/
def restartRunning (s : State) : State :=
  let s := if isLocomotive s then putNoHolder s else s
  { s with
    rxc := { s.rxc with reception := none }
    cau := { cauAtEntry s.config s.cau with generator := s.cau.generator }
    asu := Asu.reset
    bpl := { s.bpl with free := List.finRange 128, held := [] }
    odu := { Odu.reset with callNumber := s.odu.callNumber }
    tmu := { Tmu.reset with attached := true, homeTeam := s.tmu.homeTeam, presenceRequest := some .joining }
    stu := { s.stu with repeatCount := 0, seriesTeam := none }
    tpt := { s.tpt with flags := {} } }

/-! ### Meanings -/

/-- RESET (R158): taken in any part state; a reset taken while one is held changes nothing further. -/
def execReset (_cause : ResetCause) (s : State) : Host.Outcome State Fault Refusal :=
  if s.cfl.part = .configuring ∧ s.cfl.resetHeld = true then notTaken s else taken (resetTaken s)

/-- RESET_END (R159): every cause of the held reset has gone, and a load begins. -/
def execResetEnd (s : State) : Host.Outcome State Fault Refusal :=
  if s.cfl.part = .configuring ∧ s.cfl.resetHeld = true then taken (beginLoad s) else notTaken s

/-- CONFIG_OCTET_READ (R159). -/
def execConfigOctetRead (octet : Byte) (s : State) : Host.Outcome State Fault Refusal :=
  if loading s then takenAndArbitrated (octetRead octet s) else notTaken s

/-- NO_MEMORY (R159, R162). -/
def execNoMemory (s : State) : Host.Outcome State Fault Refusal :=
  if loading s then taken (endLoadFault .noMemory s) else notTaken s

end Sys2Proof.Machine
end

