-- ==== Sys2Proof/Machine/Stopping.lean ====
section
/-! DEFINITION. The all-stop series of the Stop Unit, and EMERGENCY_KEY_EDGE, EMERGENCY_KEY_RELEASE, CAB_STOP_TRANSITION,
HOLD_EXPIRY (08). -/

namespace Sys2Proof.Machine

/-- The team of an all-stop that the station starts for its team (R134, R136): the home team while ATTACHED, else 0. -/
def teamToStop (s : State) : Team := if s.tmu.attached then s.tmu.homeTeam else 0

/-- R134 step 2: the series team at a start. -/
def seriesTeamAfter (team : Team) (s : State) : Team :=
  if s.stu.repeatCount = 0 then team
  else if s.stu.seriesTeam = some team then team
  else 0

/-- R134 steps 2 to 4: a series starts or starts again. -/
def startSeries (team : Team) (s : State) : State :=
  let series := seriesTeamAfter team s
  requestAllstop series { s with stu.seriesTeam := some series, stu.repeatCount := 3 }

/-- R135: the CAU reports the on-air completion of an ALLSTOP. -/
def allstopCompleted (s : State) : State :=
  if s.stu.repeatCount = 0 then s
  else if s.stu.repeatCount = 1 then { s with stu.repeatCount := 0, stu.seriesTeam := none }
  else requestAllstop (s.stu.seriesTeam.getD 0) { s with stu.repeatCount := s.stu.repeatCount - 1 }

/-! ### Meanings -/

/-- EMERGENCY_KEY_EDGE (R134, R156): the filtered input goes from inactive to active. Outside RUNNING it is not acted on. -/
def execEmergencyKeyEdge (s : State) : Host.Outcome State Fault Refusal :=
  if s.stu.keyInput then notTaken s
  else
    let s := { s with stu.keyInput := true }
    if running s then takenAndArbitrated (startSeries (teamToStop s) s) else taken s

/-- EMERGENCY_KEY_RELEASE (R156): the filtered input returns to inactive. It is no event of the series (R134). -/
def execEmergencyKeyRelease (s : State) : Host.Outcome State Fault Refusal :=
  if s.stu.keyInput then taken { s with stu.keyInput := false } else notTaken s

/-- CAB_STOP_TRANSITION (R138, R156): on a locomotive in RUNNING CAB follows the filtered input; elsewhere it is not followed. -/
def execCabStopTransition (active : Bool) (s : State) : Host.Outcome State Fault Refusal :=
  if s.stu.cabInput = active then notTaken s
  else
    let s := { s with stu.cabInput := active }
    taken (if running s then setCab active s else s)

/-- HOLD_EXPIRY (R133). -/
def execHoldExpiry (s : State) : Host.Outcome State Fault Refusal :=
  if holdDue s then taken { s with stu.hold := false } else notTaken s

end Sys2Proof.Machine
end

