-- ==== Sys2Proof/Machine/Port.lean ====
section
/-! DEFINITION. Shared operations of the terminal port: how a frame is answered, and the layouts of the reply data (09, R169). -/

namespace Sys2Proof.Machine

/-- What a command's own rule leaves: the state, the reply code and the reply data. -/
structure PortResult where
  state : State
  answer : ReplyCode
  data : List Byte
  deriving DecidableEq, Repr

/-- A refusal, or EMPTY: nothing changes and there is no data (R144, R145). -/
def refuse (answer : ReplyCode) (s : State) : PortResult := { state := s, answer := answer, data := [] }

/-- OK: the command has acted. -/
def accept (data : List Byte) (s : State) : PortResult := { state := drivePins s, answer := .ok, data := data }

/-- The reply frame stands on data out (R143). -/
def withReply (code : Byte) (answer : ReplyCode) (data : List Byte) (s : State) : State :=
  { s with tpt.port := .reply (replyFrame code answer data) }

/-- What data out carries, octet i from here on: idle octets while select is inactive (R156) and while a command frame is being shifted in
(R143), so also after a reset (R145); then the reply, start octet first. None past the reply's last octet, of which the spec says
nothing; how many idle octets are clocked out before a reply is timing (log 12). -/
def dataOut (port : PortState) (i : Nat) : Option Byte :=
  match port with
  | .idle => some idleOctet
  | .frame => some idleOctet
  | .reply octets => octets[i]?

/-- A command frame is taken when its last check octet arrives, which needs a frame begun by an active select (R143, log 3). The tests
of R144 come first; then the command's own rule decides, and the reply is composed after it has acted. -/
def answerFrame (c : PortCommand) (f : Frame) (own : State → PortResult) (s : State) : Host.Outcome State Fault Refusal :=
  if s.tpt.port = .frame then
    match frameRefusal c f s.cfl.part with
    | some answer => .next (withReply c.code answer [] s)
    | none =>
      let r := own s
      .next (withReply c.code r.answer r.data r.state)
  else notTaken s

/-! ### Status block -/

def PartState.toByte : PartState → Byte
  | .configuring => 0
  | .running => 1
  | .halted => 2

/-- Fault code and offending offset. -/
def FaultCode.octets : FaultCode → List Byte
  | .none => [0, 0]
  | .noMemory => [1, 0]
  | .badDigest => [2, 0]
  | .badField offset => [3, offset]

def roleByte : Role → Byte
  | .portable => 0
  | .locomotive => 1

/-- Control state, holder, offered station, offer stamp (R147). -/
def Control.octets : Control → List Byte
  | .unheld => [0, 0, 0, 0, 0, 0, 0]
  | .held h => [1] ++ octetsOf h ++ [0, 0, 0, 0]
  | .offerPending h o stamp => [2] ++ octetsOf h ++ octetsOf o ++ octetsOf stamp

def OrderState.bits : OrderState → BitVec 3
  | .queued => 1
  | .sending => 2
  | .awaitReadback => 3
  | .finished => 4

/-- Three octets a slot (R169). -/
def slotOctets : Option Order → List Byte
  | none => [0, 0, 0]
  | some o => [0#4 ++ BitVec.ofBool o.cancelPending ++ o.state.bits, o.callNumber, octet o.attempts]

def slotsInUse (s : State) : Nat := (s.odu.ool.filter Option.isSome).length

/-- The status block (R147, R169): 56 octets. -/
def statusBlock (s : State) : List Byte :=
  [s.cfl.part.toByte] ++ s.cfl.fault.octets ++
  [roleByte s.config.role] ++ octetsOf s.config.station ++ [s.tmu.homeTeam] ++
  [0#6 ++ BitVec.ofBool s.tmu.leavePending ++ BitVec.ofBool s.tmu.attached] ++
  [((s.tpt.range.map Prod.fst).getD 0), ((s.tpt.range.map Prod.snd).getD 0)] ++
  [s.stu.causes.toByte] ++ s.tmu.control.octets ++
  [octet s.asu.rcq.length, octet s.asu.exq.length, octet s.odu.rsq.length, octet s.odu.rbq.length, octet (slotsInUse s)] ++
  [octet s.bpl.free.length] ++ s.odu.ool.flatMap slotOctets ++
  octets2 s.cau.rate ++ octets2 s.cau.credit ++ octets2 s.cau.average ++
  [BitVec.ofBool s.cau.crowded |>.setWidth 8, s.tpt.flags.toByte]

/-! ### Records -/

/-- The handle of a call is the number of its first buffer (R66). -/
def handleOf (buffers : List BufferNumber) : BufferNumber := buffers.headD 0

def bufferOctet (b : BufferNumber) : Byte := octet b.val

/-- The buffer list in eight octets; entries past the fragment count read 0xFF. -/
def bufferListOctets (buffers : List BufferNumber) : List Byte := (buffers.map bufferOctet ++ List.replicate 8 0xFF).take 8

/-- A call record, without the data octets (R169): 21 octets. Bit 1 of octet 2 says that the target is the team. -/
def CallRecord.octets (r : CallRecord) : List Byte :=
  octetsOf r.sender ++
  [0#3 ++ BitVec.ofBool r.crowdedSeen ++ BitVec.ofBool r.fromHolder ++ BitVec.ofBool r.confirm ++
    BitVec.ofBool (decide (r.target = wholeTeam)) ++ BitVec.ofBool (Role.bit r.senderRole)] ++
  [r.callNumber, r.callType, octet r.length, octet r.buffers.length, bufferOctet (handleOf r.buffers)] ++
  bufferListOctets r.buffers ++ octetsOf r.firstStamp ++ octetsOf r.lastStamp ++ [r.verdict.toByte]

/-- The call's L data octets, read from its buffers in list order (R80, R5). -/
def callData (r : CallRecord) (s : State) : List Byte := ((readBuffers s.bpl.memory r.buffers).drop 2).take r.length

def ExceptionCode.toByte : ExceptionCode → Byte
  | .noContext => 1
  | .noBuffer => 2
  | .outOfOrder => 3
  | .lengthMismatch => 4
  | .badType => 5
  | .agedOut => 6
  | .superseded => 7
  | .rcqFull => 8

/-- Seven octets (R169). -/
def ExceptionEntry.octets (e : ExceptionEntry) : List Byte :=
  [e.code.toByte] ++ octetsOf e.sender ++ [e.callNumber, octet e.index] ++ octetsOf e.stamp

def OrderOutcome.toByte : OrderOutcome → Byte
  | .done => 0
  | .partial_ => 1
  | .refused => 2
  | .failed => 3
  | .noPeers => 4
  | .cancelled => 5

/-- 10 + 3n octets (R169). -/
def ResultRecord.octets (r : ResultRecord) : List Byte :=
  [octet r.slot, r.callNumber, r.callType] ++ octetsOf r.target ++
  [r.outcome.toByte, octet r.attempts, octet r.answered.length] ++ octetsOf r.finishStamp ++
  r.answered.flatMap (fun m => octetsOf m.1 ++ [m.2.toByte])

def LinkState.bits : LinkState → BitVec 2
  | .active => 0
  | .fading => 1
  | .lost => 2

/-- Nine octets; an absent item reads 0 with its present bit clear (R169). -/
def Peer.octets (p : Peer) : List Byte :=
  octetsOf p.station ++
  [0#3 ++ BitVec.ofBool p.reportedCauses.isSome ++ BitVec.ofBool p.reportedHolder.isSome ++ p.link.bits ++
    BitVec.ofBool (Role.bit p.role)] ++
  [octet p.silence] ++ octetsOf p.lastHeard ++ octetsOf (p.reportedHolder.getD 0) ++
  [(p.reportedCauses.map Causes.toByte).getD 0]

end Sys2Proof.Machine
end

