-- ==== Sys2Proof/Machine/PortCommands.lean ====
section
/-! DEFINITION. The port's transaction and its eighteen commands, each with its own rule (09), and BAD_COMMAND. -/

namespace Sys2Proof.Machine

/-! ### Transactions -/

/-- SELECT_ACTIVE (R143): the decoder starts a new command frame. -/
def execSelectActive (s : State) : Host.Outcome State Fault Refusal :=
  if s.tpt.port = .idle then .next { s with tpt.port := .frame } else notTaken s

/-- SELECT_INACTIVE (R143): a partial frame is discarded, or the reply ends. -/
def execSelectInactive (s : State) : Host.Outcome State Fault Refusal :=
  if s.tpt.port = .idle then notTaken s else .next { s with tpt.port := .idle }

/-- BAD_COMMAND (R144): the check octets are tested first. -/
def execBadCommand (code : Byte) (f : Frame) (s : State) : Host.Outcome State Fault Refusal :=
  if s.tpt.port = .frame then
    .next (withReply code (if frameCheckGood code f then .badCommand else .badFrame) [] s)
  else notTaken s

/-! ### Status, interrupt mask, counts, peers -/

/-- R147, R148: the five sticky flags are returned as they stand and cleared. -/
def readStatus (s : State) : PortResult := accept (statusBlock s) { s with tpt.flags := {} }

def execReadStatus (f : Frame) (s : State) : Host.Outcome State Fault Refusal := answerFrame .readStatus f readStatus s

/-- R150. -/
def setMask (mask : Byte) (s : State) : PortResult :=
  if mask.extractLsb' 5 3 = 0 then accept [] { s with tpt.mask := Mask.ofByte mask } else refuse .badRange s

def execSetMask (f : Frame) (s : State) : Host.Outcome State Fault Refusal :=
  answerFrame .setMask f (setMask (octetAt f.params 0)) s

/-- R16. -/
def readCounts (s : State) : PortResult := accept s.rxc.counts.octets s

def execReadCounts (f : Frame) (s : State) : Host.Outcome State Fault Refusal := answerFrame .readCounts f readCounts s

/-- R16: the six values are returned and set to 0 as one operation. -/
def readAndClearCounts (s : State) : PortResult := accept s.rxc.counts.octets { s with rxc.counts := {} }

def execReadAndClearCounts (f : Frame) (s : State) : Host.Outcome State Fault Refusal :=
  answerFrame .readAndClearCounts f readAndClearCounts s

/-- R152. -/
def readPeers (s : State) : PortResult := accept (octet s.tmu.peers.length :: s.tmu.peers.flatMap Peer.octets) s

def execReadPeers (f : Frame) (s : State) : Host.Outcome State Fault Refusal := answerFrame .readPeers f readPeers s

/-! ### Orders -/

/-- The tests of R87 in their order: the first that fails. -/
def submissionRefusal (sub : Submission) (s : State) : Option ReplyCode :=
  if !running s then some .notRunning
  else if !s.tmu.attached || s.tmu.leavePending then some .notAttached
  else
    match CallType.ofByte sub.callType with
    | none => some .badType
    | some t =>
      if !submissionPermitted s.config.role t sub.target then some .notPermitted
      else if !submissionLengthFits t sub.length then some .badLength
      else if ¬ (sub.target = wholeTeam ∨ (isStation sub.target = true ∧ sub.target ≠ s.config.station)) then some .badTarget
      else if (firstEmpty s.odu.ool).isNone then some .full
      else if s.bpl.free.length < fragmentCount sub.length then some .noBuffers
      else none

/-- R87, R89: the reply gives the slot and the call number. 12 section 12.2 lays out no reply data for this command: one octet each, in the
order in which 09 section 9.1 names them (DEDUCED, log 19). -/
def submitOrder (sub : Submission) (s : State) : PortResult :=
  match submissionRefusal sub s, firstEmpty s.odu.ool with
  | none, some slot => accept [octet slot, nextNumber s] (arbitrate (acceptOrder slot sub s))
  | some answer, _ => refuse answer s
  | none, none => refuse .full s

def execSubmitOrder (f : Frame) (s : State) : Host.Outcome State Fault Refusal :=
  answerFrame .submitOrder f (submitOrder (readSubmission f.params)) s

/-- R98, R99. -/
def cancelInSlot (slot : Byte) (s : State) : PortResult :=
  if 7 < slot.toNat then refuse .badRange s
  else
    match orderAt slot.toNat s with
    | none => refuse .notHeld s
    | some o =>
      if o.state = .finished ∨ (o.state = .sending ∧ o.cancelPending = true) then refuse .busy s
      else accept [] (arbitrate (cancelOrder slot.toNat o s))

def execCancelOrder (f : Frame) (s : State) : Host.Outcome State Fault Refusal :=
  answerFrame .cancelOrder f (cancelInSlot (octetAt f.params 0)) s

/-- R103. -/
def takeResult (s : State) : PortResult :=
  match s.odu.rsq with
  | [] => refuse .empty s
  | r :: rest => accept r.octets (moveHeldResult { s with odu.rsq := rest })

def execTakeResult (f : Frame) (s : State) : Host.Outcome State Fault Refusal := answerFrame .takeResult f takeResult s

/-! ### Calls and exceptions -/

/-- R80: the head record leaves the RCQ and its buffers pass to a new held call. -/
def takeCall (s : State) : PortResult :=
  match s.asu.rcq with
  | [] => refuse .empty s
  | r :: rest =>
    accept (r.octets ++ callData r s)
      { s with asu.rcq := rest, bpl.held := s.bpl.held ++ [{ handle := handleOf r.buffers, buffers := r.buffers }] }

def execTakeCall (f : Frame) (s : State) : Host.Outcome State Fault Refusal := answerFrame .takeCall f takeCall s

/-- The handle octet names the held call (R81). -/
def namesHeld (handle : Byte) (h : HeldCall) : Bool := decide (h.handle.val = handle.toNat)

/-- R81. -/
def releaseCall (handle : Byte) (s : State) : PortResult :=
  match s.bpl.held.find? (namesHeld handle) with
  | none => refuse .notHeld s
  | some h => accept [] (returnBuffers h.buffers { s with bpl.held := s.bpl.held.eraseP (namesHeld handle) })

def execReleaseCall (f : Frame) (s : State) : Host.Outcome State Fault Refusal :=
  answerFrame .releaseCall f (releaseCall (octetAt f.params 0)) s

/-- R69, R151. -/
def takeException (s : State) : PortResult :=
  match s.asu.exq with
  | [] => refuse .empty s
  | e :: rest => accept e.octets { s with asu.exq := rest }

def execTakeException (f : Frame) (s : State) : Host.Outcome State Fault Refusal := answerFrame .takeException f takeException s

/-! ### Stopping -/

/-- R136: scope 1 is TEAM, 2 is YARD. -/
def sendAllstop (scope : Byte) (s : State) : PortResult :=
  if scope = 1 then accept [] (arbitrate (startSeries (teamToStop s) s))
  else if scope = 2 then accept [] (arbitrate (startSeries 0 s))
  else refuse .badRange s

def execSendAllstop (f : Frame) (s : State) : Host.Outcome State Fault Refusal :=
  answerFrame .sendAllstop f (sendAllstop (octetAt f.params 0)) s

/-- R139: on a portable the empty set stays as it was. -/
def stopRequest (s : State) : PortResult := accept [] (setTerminal true s)

def execStopRequest (f : Frame) (s : State) : Host.Outcome State Fault Refusal := answerFrame .stopRequest f stopRequest s

/-- R139. -/
def clearTerminalStop (s : State) : PortResult := accept [] (setTerminal false s)

def execClearTerminalStop (f : Frame) (s : State) : Host.Outcome State Fault Refusal :=
  answerFrame .clearTerminalStop f clearTerminalStop s

/-! ### Team -/

/-- The tests of R108 in their order. -/
def joinRefusal (team : Team) (s : State) : Option ReplyCode :=
  if !running s then some .notRunning
  else if ¬ (1 ≤ team.toNat ∧ team.toNat ≤ 250) then some .badRange
  else if anySlotInUse s then some .busy
  else if s.config.tight = true ∧ team ≠ s.config.homeTeam then some .locked
  else none

/-- R109. -/
def joined (team : Team) (s : State) : State :=
  let s := clearTeam { s with tmu.leavePending := false }
  requestPresence .joining { s with tmu.homeTeam := team, tmu.attached := true }

def joinTeam (team : Team) (s : State) : PortResult :=
  match joinRefusal team s with
  | some answer => refuse answer s
  | none => accept [] (arbitrate (joined team s))

def execJoinTeam (f : Frame) (s : State) : Host.Outcome State Fault Refusal :=
  answerFrame .joinTeam f (joinTeam (octetAt f.params 0)) s

/-- The tests of R110 in their order. -/
def leaveRefusal (s : State) : Option ReplyCode :=
  if !running s then some .notRunning
  else if !s.tmu.attached then some .notAttached
  else if anySlotInUse s || s.tmu.leavePending then some .busy
  else none

/-- R110. -/
def leaveTeam (s : State) : PortResult :=
  match leaveRefusal s with
  | some answer => refuse answer s
  | none => accept [] (arbitrate (requestPresence .leaving { s with tmu.leavePending := true }))

def execLeaveTeam (f : Frame) (s : State) : Host.Outcome State Fault Refusal := answerFrame .leaveTeam f leaveTeam s

/-- The tests of R153 in their order. -/
def narrowRefusal (low high : Team) (s : State) : Option ReplyCode :=
  if !running s then some .notRunning
  else if ¬ (low.toNat ≤ high.toNat ∧ 1 ≤ low.toNat ∧ high.toNat ≤ 250) then some .badRange
  else if s.config.tight then some .locked
  else
    match s.tpt.range with
    | some (curLow, curHigh) => if curLow.toNat ≤ low.toNat ∧ high.toNat ≤ curHigh.toNat then none else some .locked
    | none => some .locked

/-- R153. -/
def narrowRange (low high : Team) (s : State) : PortResult :=
  match narrowRefusal low high s with
  | some answer => refuse answer s
  | none => accept [] { s with tpt.range := some (low, high) }

def execNarrowRange (f : Frame) (s : State) : Host.Outcome State Fault Refusal :=
  answerFrame .narrowRange f (narrowRange (octetAt f.params 0) (octetAt f.params 1)) s

/-! ### RESTART -/

/-- R154: in RUNNING every block takes its RESTART step; in HALTED a new load begins. -/
def restart (s : State) : PortResult :=
  if running s then accept [] (arbitrate (restartRunning s)) else accept [] (beginLoad s)

def execRestart (f : Frame) (s : State) : Host.Outcome State Fault Refusal := answerFrame .restart f restart s

end Sys2Proof.Machine
end

