-- ==== Sys2Proof/Machine/Reception.lean ====
section
/-! DEFINITION. BURST_SYNC, BURST_RECEIVED, SHORT_BURST: the Receive Classifier (01 sections 1.6 to 1.8). -/

namespace Sys2Proof.Machine

/-- The team lies within the neighbour range in force (R13, R153). -/
def inRange (team : Team) (s : State) : Bool :=
  match s.tpt.range with
  | some (low, high) => decide (low.toNat ≤ team.toNat ∧ team.toNat ≤ high.toNat)
  | none => false

/-- The team is the home team of an ATTACHED station (R13, case 5). -/
def isHomeTeam (team : Team) (s : State) : Bool := s.tmu.attached && decide (team = s.tmu.homeTeam)

/-- R11: a burst that failed its CRC is honoured as a degraded all-stop. -/
def degradedAllstop (b : Burst) (s : State) : Bool :=
  decide (b.kind = .allstop) && patternExact b && (decide (b.team = 0) || isHomeTeam b.team s || inRange b.team s)

/-- R14, second step: the burst goes on by kind. -/
def routeHomeBurst (b : Burst) (stamp : Stamp) (s : State) : State :=
  match b.kind with
  | .call => callArrived b stamp s
  | .readback => if b.target = s.config.station then readbackArrived b s else s
  | .presence => presenceBody b s
  | .allstop => honourAllstop stamp s

/-- R13: a good burst is sorted by its team field. -/
def sortByTeam (b : Burst) (stamp : Stamp) (s : State) : State :=
  if b.team = 0 then
    if b.kind = .allstop then honourAllstop stamp s else countForeign s
  else if isHomeTeam b.team s then routeHomeBurst b stamp (peerStep b stamp s)
  else if inRange b.team s then
    if b.kind = .allstop then honourAllstop stamp s else countForeign s
  else countForeign s

/-- R12: a burst that passed its CRC. -/
def goodBurst (b : Burst) (stamp : Stamp) (s : State) : State :=
  let s := countGood s
  if b.sender = s.config.station then { s with tpt.flags.ownNumberHeard := true }
  else if !isStation b.sender then countForeign s
  else sortByTeam b stamp (if b.crowded then { s with cau.crowdedHeard := true } else s)

/-- R11: a burst that failed its CRC. -/
def failedBurst (b : Burst) (stamp : Stamp) (s : State) : State :=
  if degradedAllstop b s then honourAllstop stamp s else countCheckFailure s

/-- R9, R11: the 32 octets have arrived; the receiver is no longer inside a burst. -/
def classify (octets : List Byte) (stamp : Stamp) (s : State) : State :=
  let s := { s with rxc.reception := none }
  if crcGood octets then goodBurst (readBurst octets) stamp s else failedBurst (readBurst octets) stamp s

/-- R9: the stamp is captured; an earlier reception ends as a short burst. -/
def syncTaken (s : State) : State :=
  let s := if s.rxc.reception.isSome then countCheckFailure s else s
  { s with rxc.reception := some s.time }

/-! ### Meanings -/

/-- BURST_SYNC (R9): taken in RUNNING outside ON_AIR. -/
def execBurstSync (s : State) : Host.Outcome State Fault Refusal :=
  if running s ∧ s.cau.access ≠ .onAir then taken (syncTaken s) else notTaken s

/-- BURST_RECEIVED (R11): ends a reception in progress. -/
def execBurstReceived (octets : List Byte) (s : State) : Host.Outcome State Fault Refusal :=
  match running s, s.rxc.reception with
  | true, some stamp => takenAndArbitrated (classify octets stamp s)
  | _, _ => notTaken s

/-- SHORT_BURST (R9): the receive line went quiet first. -/
def execShortBurst (s : State) : Host.Outcome State Fault Refusal :=
  if running s ∧ s.rxc.reception.isSome then taken (countCheckFailure { s with rxc.reception := none }) else notTaken s

end Sys2Proof.Machine
end

