-- ==== Sys2Proof/Machine/Sampling.lean ====
section
/-! DEFINITION. LEVEL_SAMPLE, PACE_TIMER_EXPIRY, GAP_COMPLETE, SLOT_COMPLETE, ON_AIR_COMPLETION, FORCE_TIMER_EXPIRY (02, 03). -/

namespace Sys2Proof.Machine

/-- The release level of R18. -/
def releaseLevel (c : Config) : Nat := max 1 (c.busyThreshold - c.hysteresis)

/-- R18: the sense state after a sample outside ON_AIR. -/
def sensed (c : Config) (before : SenseState) (level : Level) (insideBurst : Bool) : SenseState :=
  if insideBurst then .busy
  else
    match before with
    | .clear => if c.busyThreshold ≤ level.toNat then .busy else .clear
    | .busy => if level.toNat < releaseLevel c then .clear else .busy

/-- R37, R38: the access sequence takes the sense state left by a sample. -/
def accessSample (c : Cau) : Cau :=
  match c.access, c.sense with
  | .gap, .clear => { c with gapCount := c.gapCount + 1 }
  | .gap, .busy => { c with gapCount := 0 }
  | .backoff, .clear => { c with slotCount := c.slotCount + 1 }
  | .backoff, .busy => { c with access := .gap, gapCount := 0, slotCount := 0 }
  | _, _ => c

/-- R17, R19, R20: one level sample. -/
def sampled (c : Config) (level : Level) (insideBurst : Bool) (cau : Cau) : Cau :=
  if cau.access = .onAir then
    { cau with occupancy := cau.occupancy + 1, paceSamples := cau.paceSamples + 1, onAirSamples := cau.onAirSamples + 1 }
  else
    let sense := sensed c cau.sense level insideBurst
    let occupancy := if sense = .busy then cau.occupancy + 1 else cau.occupancy
    accessSample { cau with sense := sense, occupancy := occupancy, paceSamples := cau.paceSamples + 1 }

/-- R21 step 1. -/
def foldedAverage (average occupancy : Nat) : Nat := average - average / 4 + occupancy

/-- R21: the four steps of a pace timer expiry; the next period begins with the next sample. -/
def paceExpired (c : Config) (cau : Cau) : Cau :=
  let average := foldedAverage cau.average cau.occupancy
  let rate := if cau.crowdedHeard then decreasedRate c cau.rate else cau.rate
  { cau with
    average := average, occupancy := 0, paceSamples := 0, crowded := decide (c.crowdThreshold ≤ average), rate := rate,
    crowdedHeard := false, credit := min 1024 (cau.credit + rate) }

/-- B of the staged burst. -/
def stagedBackoff (s : State) : Nat := (s.cau.staging.map Staged.backoff).getD 0

/-- R37: the gap is complete. -/
def gapCompleted (s : State) : State :=
  if stagedBackoff s = 0 then goOnAir s else { s with cau.access := .backoff, cau.slotCount := 0 }

/-- R38: a slot is complete; B goes down by one. -/
def slotCompleted (s : State) : State :=
  let s := { s with
    cau.staging := s.cau.staging.map (fun st => { st with backoff := st.backoff - 1 })
    cau.slotCount := 0 }
  if stagedBackoff s = 0 then goOnAir s else s

/-- R40: the completion is reported to the owners of the burst. -/
def reportCompletion (source : Source) (s : State) : State :=
  let s := { s with tmu.presenceCount := 0 }
  match source with
  | .fragment slot index => fragmentCompleted slot index s
  | .readback => s
  | .presence flag => presenceCompleted flag s
  | .allstop _ => allstopCompleted s

/-- R40: the access state leaves ON_AIR, after the reports. A staged ALLSTOP whose force timer has expired goes on air at once (R51). -/
def leaveOnAir (s : State) : State :=
  match s.cau.staging with
  | some st =>
    if st.force = .expired then goOnAir s
    else { s with cau.access := .gap, cau.gapCount := 0, cau.slotCount := 0, cau.onAirSamples := 0 }
  | none => { s with cau.access := .idle, cau.gapCount := 0, cau.slotCount := 0, cau.onAirSamples := 0 }

/-- R40. -/
def onAirCompleted (s : State) : State :=
  match s.cau.onAir with
  | some burst => leaveOnAir (reportCompletion burst.source { s with cau.onAir := none })
  | none => s

/-- R51: the force timer expires. -/
def forceExpired (s : State) : State :=
  if s.cau.access = .onAir then
    { s with cau.staging := s.cau.staging.map (fun st => { st with force := .expired }) }
  else goOnAir s

/-! ### Meanings -/

/-- LEVEL_SAMPLE (R17): taken in RUNNING, after any completion that an earlier sample brought (log 4). -/
def execLevelSample (level : Level) (s : State) : Host.Outcome State Fault Refusal :=
  if running s ∧ sampleWaits s = false then
    taken { s with cau := sampled s.config level s.rxc.reception.isSome s.cau }
  else notTaken s

/-- PACE_TIMER_EXPIRY (R21). -/
def execPaceTimerExpiry (s : State) : Host.Outcome State Fault Refusal :=
  if paceDue s then takenAndArbitrated { s with cau := paceExpired s.config s.cau } else notTaken s

/-- GAP_COMPLETE (R37). -/
def execGapComplete (s : State) : Host.Outcome State Fault Refusal :=
  if gapDue s then takenAndArbitrated (gapCompleted s) else notTaken s

/-- SLOT_COMPLETE (R38). -/
def execSlotComplete (s : State) : Host.Outcome State Fault Refusal :=
  if slotDue s then takenAndArbitrated (slotCompleted s) else notTaken s

/-- ON_AIR_COMPLETION (R40). -/
def execOnAirCompletion (s : State) : Host.Outcome State Fault Refusal :=
  if onAirDue s then takenAndArbitrated (onAirCompleted s) else notTaken s

/-- FORCE_TIMER_EXPIRY (R51). -/
def execForceTimerExpiry (s : State) : Host.Outcome State Fault Refusal :=
  if forceDue s then takenAndArbitrated (forceExpired s) else notTaken s

end Sys2Proof.Machine
end

