-- ==== Sys2Proof/Machine/Timers.lean ====
section
/-! DEFINITION. READBACK_WAIT_EXPIRY, AGING_TIMER_EXPIRY, SILENCE_TIMER_EXPIRY, PRESENCE_TIMER_EXPIRY, OFFER_TIMER_EXPIRY. -/

namespace Sys2Proof.Machine

/-- READBACK_WAIT_EXPIRY (R94). -/
def execReadbackWaitExpiry (slot : Fin 8) (s : State) : Host.Outcome State Fault Refusal :=
  if waitDue slot.val s then takenAndArbitrated (waitExpired slot.val s) else notTaken s

/-- AGING_TIMER_EXPIRY (R70): the next period of 100 ms runs on from the end of this one. -/
def execAgingTimerExpiry (s : State) : Host.Outcome State Fault Refusal :=
  if agingDue s then taken (ageContexts { s with asu.agingMs := s.asu.agingMs - 100 }) else notTaken s

/-- SILENCE_TIMER_EXPIRY (R115). -/
def execSilenceTimerExpiry (s : State) : Host.Outcome State Fault Refusal :=
  if silenceDue s then taken (silenceExpired { s with tmu.silenceMs := s.tmu.silenceMs - 100 }) else notTaken s

/-- PRESENCE_TIMER_EXPIRY (R116). -/
def execPresenceTimerExpiry (s : State) : Host.Outcome State Fault Refusal :=
  if presenceDue s then takenAndArbitrated (presenceExpired { s with tmu.presenceMs := s.tmu.presenceMs - 100 }) else notTaken s

/-- OFFER_TIMER_EXPIRY (R126). -/
def execOfferTimerExpiry (s : State) : Host.Outcome State Fault Refusal :=
  if offerDue s then taken (offerLapsed s) else notTaken s

end Sys2Proof.Machine
end

