-- ==== Sys2Proof/Machine/Dispatch.lean ====
section
/-! DEFINITION. One arm per command: the command's effect on everything but the queue. -/

namespace Sys2Proof.Machine

def exec (i : Instr) (s : State) : Host.Outcome State Fault Refusal :=
  match i with
  | .reset cause => Sys2Proof.Machine.execReset cause s
  | .resetEnd => Sys2Proof.Machine.execResetEnd s
  | .configOctetRead octet => Sys2Proof.Machine.execConfigOctetRead octet s
  | .noMemory => Sys2Proof.Machine.execNoMemory s
  | .burstSync => Sys2Proof.Machine.execBurstSync s
  | .burstReceived octets => Sys2Proof.Machine.execBurstReceived octets s
  | .shortBurst => Sys2Proof.Machine.execShortBurst s
  | .levelSample level => Sys2Proof.Machine.execLevelSample level s
  | .paceTimerExpiry => Sys2Proof.Machine.execPaceTimerExpiry s
  | .gapComplete => Sys2Proof.Machine.execGapComplete s
  | .slotComplete => Sys2Proof.Machine.execSlotComplete s
  | .onAirCompletion => Sys2Proof.Machine.execOnAirCompletion s
  | .forceTimerExpiry => Sys2Proof.Machine.execForceTimerExpiry s
  | .readbackWaitExpiry slot => Sys2Proof.Machine.execReadbackWaitExpiry slot s
  | .agingTimerExpiry => Sys2Proof.Machine.execAgingTimerExpiry s
  | .silenceTimerExpiry => Sys2Proof.Machine.execSilenceTimerExpiry s
  | .presenceTimerExpiry => Sys2Proof.Machine.execPresenceTimerExpiry s
  | .offerTimerExpiry => Sys2Proof.Machine.execOfferTimerExpiry s
  | .holdExpiry => Sys2Proof.Machine.execHoldExpiry s
  | .emergencyKeyEdge => Sys2Proof.Machine.execEmergencyKeyEdge s
  | .cabStopTransition active => Sys2Proof.Machine.execCabStopTransition active s
  | .selectInactive => Sys2Proof.Machine.execSelectInactive s
  | .badCommand code f => Sys2Proof.Machine.execBadCommand code f s
  | .readStatus f => Sys2Proof.Machine.execReadStatus f s
  | .submitOrder f => Sys2Proof.Machine.execSubmitOrder f s
  | .cancelOrder f => Sys2Proof.Machine.execCancelOrder f s
  | .takeCall f => Sys2Proof.Machine.execTakeCall f s
  | .releaseCall f => Sys2Proof.Machine.execReleaseCall f s
  | .takeException f => Sys2Proof.Machine.execTakeException f s
  | .takeResult f => Sys2Proof.Machine.execTakeResult f s
  | .readPeers f => Sys2Proof.Machine.execReadPeers f s
  | .sendAllstop f => Sys2Proof.Machine.execSendAllstop f s
  | .stopRequest f => Sys2Proof.Machine.execStopRequest f s
  | .clearTerminalStop f => Sys2Proof.Machine.execClearTerminalStop f s
  | .joinTeam f => Sys2Proof.Machine.execJoinTeam f s
  | .leaveTeam f => Sys2Proof.Machine.execLeaveTeam f s
  | .narrowRange f => Sys2Proof.Machine.execNarrowRange f s
  | .readCounts f => Sys2Proof.Machine.execReadCounts f s
  | .readAndClearCounts f => Sys2Proof.Machine.execReadAndClearCounts f s
  | .setMask f => Sys2Proof.Machine.execSetMask f s
  | .restart f => Sys2Proof.Machine.execRestart f s
  | .selectActive => Sys2Proof.Machine.execSelectActive s
  | .emergencyKeyRelease => Sys2Proof.Machine.execEmergencyKeyRelease s

end Sys2Proof.Machine
end

