-- ==== Sys2Proof/Safety.lean ====
section
/-! DEFINITION. What holds of a sound part between two events: the laws that the chapters state of each block's state. A run is safe
while every state in it is Sound. -/

namespace Sys2Proof.Machine

/-! ### Outputs -/

/-- STOPD follows part state, role and cause set (R130), the interrupt output its unmasked conditions (R149), the transmit key the
on-air register (R39). -/
def PinsFollow (s : State) : Prop :=
  s.pins = { stopd := stopdAsserted s, interrupt := interruptActive s, key := s.cau.onAir.isSome }

/-! ### Configuration -/

/-- What the checks of R161 leave of a configuration. -/
structure ConfigSound (c : Config) : Prop where
  station : isStation c.station = true
  homeTeam : 1 ≤ c.homeTeam.toNat ∧ c.homeTeam.toNat ≤ 250
  range : 1 ≤ c.rangeLow.toNat ∧ c.rangeLow.toNat ≤ c.rangeHigh.toNat ∧ c.rangeHigh.toNat ≤ 250
  sensing : 1 ≤ c.busyThreshold ∧ c.busyThreshold ≤ 1023 ∧ c.hysteresis ≤ 63
  crowding : 1 ≤ c.crowdThreshold ∧ c.crowdThreshold ≤ 800
  decrease : 1 ≤ c.decreaseFactor ∧ c.decreaseFactor ≤ 7
  rates : 16 ≤ c.rMin ∧ c.rMin ≤ c.rInit ∧ c.rInit ≤ c.rMax ∧ c.rMax ≤ 1024
  attempts : 1 ≤ c.attemptLimit ∧ c.attemptLimit ≤ 8

/-- A configuration is in force exactly in RUNNING, and it passed every check (R157, R161, R162). -/
def ConfigKept (s : State) : Prop :=
  (s.cfl.part = .running ↔ s.cfl.inForce.isSome = true) ∧ ∀ c, s.cfl.inForce = some c → ConfigSound c

/-! ### Pace -/

/-- R24, with O within the samples of the period (R20). -/
def PaceWithin (s : State) : Prop :=
  s.cau.credit ≤ 1024 ∧ s.cau.average ≤ 800 ∧ s.cau.occupancy ≤ s.cau.paceSamples ∧ s.cau.paceSamples ≤ 200 ∧
    (s.cfl.part = .running → s.config.rMin ≤ s.cau.rate ∧ s.cau.rate ≤ s.config.rMax)

/-! ### Transmitter -/

/-- The table of 03 section 3.2: which registers hold a burst in each access state. -/
def AccessAgrees (c : Cau) : Prop :=
  match c.access with
  | .idle => c.staging = none ∧ c.onAir = none
  | .gap => c.staging.isSome = true ∧ c.onAir = none
  | .backoff => c.staging.isSome = true ∧ c.onAir = none
  | .onAir => c.onAir.isSome = true

/-- A staged burst has a good CRC (R35), a window of 1..128 (R42) and B within 0..W-1 (R43). -/
def StagedSound (st : Staged) : Prop :=
  crcGood st.burst = true ∧ 1 ≤ st.window ∧ st.window ≤ 128 ∧ st.backoff < st.window

def isFragment : Source → Bool
  | .fragment _ _ => true
  | _ => false

/-- R46: an order fragment stands in a register only while the joining gate is open. -/
def GateKept (c : Cau) : Prop :=
  (∀ st, c.staging = some st → isFragment st.source = true → c.gateOpen = true) ∧
    (∀ b, c.onAir = some b → isFragment b.source = true → c.gateOpen = true)

/-- R44, R43: seeded whenever the part is RUNNING, and never 0. -/
def GeneratorKept (s : State) : Prop :=
  (s.cfl.part = .running → s.cau.generator.isSome = true) ∧ s.cau.generator ≠ some 0

/-- The counts of the access sequence stay within their ranges (R37, R38, R39). -/
def CountsWithin (c : Cau) : Prop := c.gapCount ≤ 8 ∧ c.slotCount ≤ 4 ∧ c.onAirSamples ≤ 60

/-- The Channel Access Unit's registers, counts and generator are sound. -/
def TransmitterSound (s : State) : Prop :=
  AccessAgrees s.cau ∧ (∀ st, s.cau.staging = some st → StagedSound st) ∧
    (∀ b, s.cau.onAir = some b → crcGood b.burst = true) ∧ GateKept s.cau ∧ GeneratorKept s ∧ CountsWithin s.cau

/-- R45: while the part is RUNNING, the staging register is empty only if no class has anything ready. -/
def ArbiterKept (s : State) : Prop := s.cfl.part = .running → s.cau.staging = none → readyClass s = none

/-! ### Assembly -/

/-- The contents of the slots in use, in slot order. -/
def inUse {α : Type} (slots : List (Option α)) : List α := slots.filterMap id

/-- R53: 24 contexts; no two ASSEMBLING contexts share a sender; each holds as many buffers as its next expected index, 1..7. -/
def ContextsSound (s : State) : Prop :=
  s.asu.contexts.length = 24 ∧ ((inUse s.asu.contexts).map Context.sender).Nodup ∧
    ∀ c ∈ inUse s.asu.contexts, c.buffers.length = c.next ∧ 1 ≤ c.next ∧ c.next ≤ 7

/-- R67, R69, R66: at most 16 records and 16 entries, and every record in the RCQ carries ACCEPTED. -/
def ReceiveQueuesSound (s : State) : Prop :=
  s.asu.rcq.length ≤ 16 ∧ s.asu.exq.length ≤ 16 ∧ ∀ r ∈ s.asu.rcq, r.verdict = .accepted

def AssemblySound (s : State) : Prop := ContextsSound s ∧ ReceiveQueuesSound s

/-! ### Buffers -/

/-- The buffers that the orders hold, by slot. -/
def orderBuffers (ool : List (Option Order)) : List BufferNumber := (inUse ool).flatMap Order.buffers

/-- Every place where a buffer can be (R77), one after another. -/
def bufferPlaces (s : State) : List BufferNumber :=
  s.bpl.free ++ contextBuffers s.asu.contexts ++ s.asu.rcq.flatMap CallRecord.buffers ++ s.bpl.held.flatMap HeldCall.buffers ++
    orderBuffers s.odu.ool

/-- R77: each of the 128 buffers is in exactly one place. -/
def BuffersBalanced (s : State) : Prop := (bufferPlaces s).Perm (List.finRange 128)

/-- R75: the contents are canonical and lie within the 128 buffers of 22 octets. -/
def BufferMemorySound (s : State) : Prop := Memory.wf s.bpl.memory = true ∧ ∀ cell ∈ s.bpl.memory, cell.1 < 2816

/-! ### Orders -/

/-- The FINISHED orders are those waiting in finishing order for room in the RSQ; they hold no buffers (R85, R79), and wait only
while the RSQ is full (R103). -/
def FinishedHeld (s : State) : Prop :=
  s.odu.finishedSlots.Nodup ∧
    (∀ i, i ∈ s.odu.finishedSlots ↔ ∃ o, orderAt i s = some o ∧ o.state = .finished) ∧
    (∀ i o, orderAt i s = some o → o.state = .finished → o.buffers = []) ∧
    (s.odu.finishedSlots ≠ [] → s.odu.rsq.length = 8)

/-- R85: 8 slots, at most one order SENDING, distinct call numbers; R103, R104: at most 8 results and 8 read-backs, no two
read-backs for one call of one sender. -/
def OrdersSound (s : State) : Prop :=
  s.odu.ool.length = 8 ∧ ((inUse s.odu.ool).filter isSending).length ≤ 1 ∧ ((inUse s.odu.ool).map Order.callNumber).Nodup ∧
    s.odu.rsq.length ≤ 8 ∧ s.odu.rbq.length ≤ 8 ∧ (s.odu.rbq.map (fun e => (e.sender, e.callNumber))).Nodup ∧ FinishedHeld s

/-- R92, R47: only a SENDING order has a fragment in a register by its place. It stands staged exactly when the staging register holds
its next fragment, and on air only while the on-air register does. The on-air register may go on with a fragment of an order that has
finished since; the report of that fragment is ignored (R92). -/
def PlacesAgree (s : State) : Prop :=
  (∀ i o, orderAt i s = some o → o.place ≠ .none → o.state = .sending) ∧
    (∀ i o, orderAt i s = some o → o.place = .staged → ∃ st, s.cau.staging = some st ∧ st.source = .fragment i o.next) ∧
    (∀ st i index, s.cau.staging = some st → st.source = .fragment i index →
      ∃ o, orderAt i s = some o ∧ o.place = .staged ∧ o.next = index) ∧
    (∀ i o, orderAt i s = some o → o.place = .onAir → ∃ b, s.cau.onAir = some b ∧ b.source = .fragment i o.next)

/-! ### Team and control -/

/-- R111: at most 16 entries, no two of one station (they stand in ascending order), and none for this station itself. -/
def PeersSound (s : State) : Prop :=
  s.tmu.peers.length ≤ 16 ∧ s.tmu.peers.Pairwise (fun p q => p.station.toNat < q.station.toNat) ∧
    (s.cfl.part = .running → ∀ p ∈ s.tmu.peers, p.station ≠ s.config.station)

/-- R118: on a locomotive NO_HOLDER is in the set exactly when the state is UNHELD, and a holder is another station with a portable
entry; a portable has no control state (R118) and an empty set (R128). -/
def ControlSound (s : State) : Prop :=
  s.cfl.part = .running →
    match s.config.role with
    | .locomotive =>
      (s.stu.causes.noHolder = true ↔ s.tmu.control = .unheld) ∧
        ∀ h, s.tmu.control.holder = some h → h ≠ s.config.station ∧ ∃ p ∈ s.tmu.peers, p.station = h ∧ p.role = .portable
    | .portable => s.tmu.control = .unheld ∧ s.stu.causes = {}

def TeamSound (s : State) : Prop := PeersSound s ∧ ControlSound s

/-! ### CONFIGURING and HALTED -/

/-- Outside RUNNING every block holds the values of its first column: R33, R52 (CAU), R74 (ASU), R83 (pool), R106 (ODU), R127 (TMU),
R140 (STU), R155 (TPT), and no reception is in progress (R9). -/
def AtRest (s : State) : Prop :=
  s.cfl.part ≠ .running →
    s.cfl.inForce = none ∧ s.rxc.reception = none ∧ s.cau = Cau.reset ∧ s.asu = Asu.reset ∧ s.bpl.free = List.finRange 128 ∧
      s.bpl.held = [] ∧ s.odu = Odu.reset ∧ s.tmu = Tmu.reset ∧
      s.stu = { Stu.reset with cabInput := s.stu.cabInput, keyInput := s.stu.keyInput } ∧ s.tpt.flags = {} ∧ s.tpt.range = none

/-! ### Stop causes -/

/-- The three causes that only a RELEASE or a reset takes out (R129). -/
def radioCauses (c : Causes) : List Bool := [c.radioStop, c.allstop, c.supervision]

/-- The causes after an accepted RELEASE (R129). -/
def releasedCauses (c : Causes) : Causes := { c with radioStop := false, allstop := false, supervision := false }

/-! ### Situations that the statements speak of -/

/-- The part is RUNNING with a reception in progress, whose stamp this is (R9). -/
def Receiving (stamp : Stamp) (s : State) : Prop := running s = true ∧ s.rxc.reception = some stamp

/-- The team lies within the neighbour range in force (R153). -/
def InRange (team : Team) (s : State) : Prop :=
  ∃ low high, s.tpt.range = some (low, high) ∧ low.toNat ≤ team.toNat ∧ team.toNat ≤ high.toNat

/-- The team is the home team of an ATTACHED station (R13). -/
def IsHome (team : Team) (s : State) : Prop := s.tmu.attached = true ∧ team = s.tmu.homeTeam

/-- The sender of a good burst is another station of the home team (R12, R13). -/
def FromMember (b : Burst) (s : State) : Prop :=
  b.sender ≠ s.config.station ∧ isStation b.sender = true ∧ b.team ≠ 0 ∧ IsHome b.team s

/-- The fragment is for this station or the team (R54). -/
def ForUs (b : Burst) (s : State) : Prop := b.target = s.config.station ∨ b.target = wholeTeam

/-- A good burst received to its end: counted, its crowded mark noted (R12). -/
def heardGood (b : Burst) (s : State) : State :=
  { s with
    rxc.reception := none
    rxc.counts.burstsGood := countUp s.rxc.counts.burstsGood
    cau.crowdedHeard := s.cau.crowdedHeard || b.crowded }

/-- An all-stop honoured (R131, R132): a locomotive's ALLSTOP_CAUSE, with the flag if it was absent; stamp, hold and ALLSTOP_HEARD on
either role. -/
def heardAllstop (stamp : Stamp) (s : State) : State :=
  { s with
    stu.causes := if isLocomotive s then { s.stu.causes with allstop := true } else s.stu.causes
    stu.lastAllstop := some stamp
    stu.hold := true
    tpt.flags.allstopHeard := true
    tpt.flags.causesChanged := s.tpt.flags.causesChanged || (isLocomotive s && !s.stu.causes.allstop) }

/-- How an event ends that may empty the staging register or make a class ready: the arbiter looks (R45), and the outputs follow. -/
def settle (s : State) : State := drivePins (arbitrate s)

/-- The command of the queue that stands for a complete frame of one of the eighteen port commands. -/
def commandOf (c : PortCommand) (f : Frame) : Instr :=
  match c with
  | .readStatus => .readStatus f
  | .submitOrder => .submitOrder f
  | .cancelOrder => .cancelOrder f
  | .takeCall => .takeCall f
  | .releaseCall => .releaseCall f
  | .takeException => .takeException f
  | .takeResult => .takeResult f
  | .readPeers => .readPeers f
  | .sendAllstop => .sendAllstop f
  | .stopRequest => .stopRequest f
  | .clearTerminalStop => .clearTerminalStop f
  | .joinTeam => .joinTeam f
  | .leaveTeam => .leaveTeam f
  | .narrowRange => .narrowRange f
  | .readCounts => .readCounts f
  | .readAndClearCounts => .readAndClearCounts f
  | .setMask => .setMask f
  | .restart => .restart f

/-- A frame of command c completes at the port and passes the tests of R144: its check octets equal the digest, the part state takes
the command further, and the parameter length is the one required. -/
def FramePasses (c : PortCommand) (f : Frame) (s : State) : Prop :=
  s.tpt.port = .frame ∧ f.check = digest (c.code :: octet f.params.length :: f.params) ∧ c.acceptedIn s.cfl.part = true ∧
    f.params.length = c.requiredLength f.params

/-- A frame of command c completes at the port with good check octets while the part is not RUNNING. -/
def FrameOutsideRunning (c : PortCommand) (f : Frame) (s : State) : Prop :=
  s.tpt.port = .frame ∧ f.check = digest (c.code :: octet f.params.length :: f.params) ∧ s.cfl.part ≠ .running

/-- The reply to an accepted command, composed after it has acted and the outputs have followed. -/
def replied (c : PortCommand) (data : List Byte) (s : State) : State := withReply c.code .ok data (drivePins s)

/-- The reply to a refused command, or EMPTY: nothing else changes (R144). -/
def turnedDown (c : PortCommand) (answer : ReplyCode) (s : State) : State := withReply c.code answer [] s

/-! ### A sound part -/

/-- Every law of this file. -/
def Sound (s : State) : Prop :=
  PinsFollow s ∧ ConfigKept s ∧ PaceWithin s ∧ TransmitterSound s ∧ AssemblySound s ∧ BuffersBalanced s ∧ BufferMemorySound s ∧
    OrdersSound s ∧ PlacesAgree s ∧ ArbiterKept s ∧ TeamSound s ∧ AtRest s

end Sys2Proof.Machine
end

