-- ==== Sys2Proof/Certificates/Slice0/Obligations.lean ====
section
/-! DEFINITION. The statements for the provers: what the numbered rules say that each command does, and the laws that every step
keeps. Every command has a statement whose conclusion is the next state that it ends in. -/

section

open Sys2Proof Sys2Proof.Machine

/-- A step runs the command at the front of the queue, or passes a millisecond on an empty queue (00 Conventions; 01 section 1.2;
log entry 2). -/
def Obligations.StepsRunCommandsOrPassAMillisecond : Prop :=
  (∀ (c : Instr) (rest : List Instr) (s : State),
     step { s with pending := c :: rest } = exec c { s with pending := rest }) ∧
  (∀ s : State, s.pending = [] →
     step s = .next (if s.cfl.part = .running then
       { s with
         time := s.time + 1
         cau.staging := s.cau.staging.map (fun st => { st with force := st.force.tick })
         asu.agingMs := s.asu.agingMs + 1
         odu.ool := s.odu.ool.map (Option.map (fun o => { o with wait := o.wait.map (· - 1) }))
         tmu.silenceMs := s.tmu.silenceMs + 1
         tmu.presenceMs := s.tmu.presenceMs + 1 }
     else { s with time := s.time + 1 }))

/-- Right after a power-on reset the part holds the values the spec gives (02 section 2.7; 03 section 3.6; 04 section 4.9; 05
section 5.6; 06 section 6.9; 08 section 8.6; 09 section 9.3; 10 section 10.2). -/
def Obligations.ResetStateHoldsTheSpecValues : Prop :=
  State.reset.time = 0 ∧ State.reset.cfl.part = .configuring ∧ State.reset.cfl.resetHeld = true ∧ State.reset.cfl.fault = .none ∧
    State.reset.cfl.inForce = none ∧ State.reset.rxc.reception = none ∧
    State.reset.rxc.counts = { burstsGood := 0, checkFailures := 0, foreignBursts := 0, orphanFragments := 0, duplicateCalls := 0,
                               strayReadbacks := 0 } ∧
    State.reset.cau.sense = .clear ∧ State.reset.cau.occupancy = 0 ∧ State.reset.cau.average = 0 ∧ State.reset.cau.crowded = false ∧
    State.reset.cau.crowdedHeard = false ∧ State.reset.cau.rate = 0 ∧ State.reset.cau.credit = 0 ∧ State.reset.cau.staging = none ∧
    State.reset.cau.onAir = none ∧ State.reset.cau.access = .idle ∧ State.reset.cau.gateOpen = false ∧
    State.reset.cau.allstopRequest = none ∧ State.reset.cau.generator = none ∧
    State.reset.asu.contexts = List.replicate 24 none ∧ State.reset.asu.rcq = [] ∧ State.reset.asu.exq = [] ∧
    State.reset.bpl.free = List.finRange 128 ∧ State.reset.bpl.held = [] ∧
    State.reset.odu.ool = List.replicate 8 none ∧ State.reset.odu.rsq = [] ∧ State.reset.odu.rbq = [] ∧ State.reset.odu.callNumber = 0 ∧
    State.reset.tmu.peers = [] ∧
    State.reset.stu.causes = { radioStop := false, allstop := false, supervision := false, noHolder := false, cab := false,
                               terminal := false } ∧
    State.reset.stu.lastAllstop = none ∧ State.reset.stu.hold = false ∧ State.reset.stu.repeatCount = 0 ∧
    State.reset.stu.seriesTeam = none ∧
    State.reset.tpt.mask = { rcq := true, exq := true, rsq := true, causesChanged := true, allstopHeard := true } ∧
    State.reset.tpt.flags = { causesChanged := false, allstopHeard := false, exqOverflow := false, ownNumberHeard := false,
                              peerTableFull := false } ∧
    State.reset.pins = { stopd := true, interrupt := false, key := false } ∧ State.reset.pending = []

/-- A reset returns every block; a load begins at its end and at a RESTART in HALTED, and may find no memory (10 section 10.2; 10
section 10.3; 10 section 10.6; 08 section 8.6; 09 section 9.6; log entry 6; log entry 7; log entry 8; log entry 9). Buffer
contents 0, the sequence's start at 0, attachment, home team and control before a load, and keeping the filtered inputs are the
model's choices (log entries 6, 7, 8 and 9). -/
def Obligations.ResetsAndLoadsBegin : Prop :=
  (∀ (cause : ResetCause) (s : State),
     exec (.reset cause) s = .next (if s.cfl.part = .configuring ∧ s.cfl.resetHeld = true then s
       else { State.reset with stu.cabInput := s.stu.cabInput, stu.keyInput := s.stu.keyInput, pending := s.pending })) ∧
  (∀ (f : Frame) (s : State),
     (s.cfl.part = .configuring → s.cfl.resetHeld = true →
       exec .resetEnd s = .next (drivePins
         { s with cfl := { part := .configuring, resetHeld := false, fault := .none, holding := [], inForce := none } })) ∧
     (s.cfl.part = .configuring → s.cfl.resetHeld = false →
       exec .noMemory s = .next (drivePins
         { s with cfl := { part := .halted, resetHeld := false, fault := .noMemory, holding := [], inForce := none } })) ∧
     (FramePasses .restart f s → s.cfl.part = .halted →
       exec (.restart f) s = .next (replied .restart []
         { s with cfl := { part := .configuring, resetHeld := false, fault := .none, holding := [], inForce := none } })))

/-- The field checks run in order, and the 24th octet ends a load in HALTED or in RUNNING with every entry value (10 section 10.3;
10 section 10.4; 12 section 12.3; 02 section 2.7; 03 section 3.6; 04 section 4.9; 05 section 5.6; 06 section 6.9; 07 section 7.9;
08 section 8.6; log entry 5; log entry 7). That the submission sequence restarts at 0 is the model's choice (log entry 7): R106
names no value. When the arbiter looks within the event is log entry 5. -/
def Obligations.ConfigurationIsCheckedAndLoaded : Prop :=
  (∀ block : List Byte,
     firstBadField block =
       if ¬ (octetAt block 0 = 1 ∨ octetAt block 0 = 2) then some 0
       else if wordAt block 1 = 0 ∨ wordAt block 1 = 65535 then some 1
       else if ¬ (1 ≤ (octetAt block 3).toNat ∧ (octetAt block 3).toNat ≤ 250) then some 3
       else if (octetAt block 4).toNat < 1 then some 4
       else if (octetAt block 5).toNat < (octetAt block 4).toNat ∨ 250 < (octetAt block 5).toNat then some 5
       else if (wordAt block 6).toNat < 1 ∨ 1023 < (wordAt block 6).toNat then some 6
       else if 63 < (octetAt block 8).toNat then some 8
       else if (wordAt block 9).toNat < 1 ∨ 800 < (wordAt block 9).toNat then some 9
       else if (octetAt block 11).toNat < 1 ∨ 7 < (octetAt block 11).toNat then some 11
       else if (wordAt block 13).toNat < 16 then some 13
       else if (wordAt block 15).toNat < (wordAt block 13).toNat then some 15
       else if (wordAt block 17).toNat < (wordAt block 15).toNat ∨ 1024 < (wordAt block 17).toNat then some 17
       else if (octetAt block 20).toNat / 8 % 16 < 1 ∨ 8 < (octetAt block 20).toNat / 8 % 16 then some 20
       else none) ∧
  (∀ (x : Byte) (s : State), s.cfl.part = .configuring → s.cfl.resetHeld = false →
     (s.cfl.holding.length < 23 →
       exec (.configOctetRead x) s = .next (drivePins { s with cfl.holding := s.cfl.holding ++ [x] })) ∧
     (s.cfl.holding.length = 23 → ∀ block, block = s.cfl.holding ++ [x] →
       (wordAt block 22 ≠ digest (block.take 22) →
         exec (.configOctetRead x) s = .next (drivePins
           { s with cfl := { part := .halted, resetHeld := false, fault := .badDigest, holding := [], inForce := none } })) ∧
       (wordAt block 22 = digest (block.take 22) →
         (∀ offset, firstBadField block = some offset →
           exec (.configOctetRead x) s = .next (drivePins
             { s with cfl := { part := .halted, resetHeld := false, fault := .badField offset, holding := [], inForce := none } })) ∧
         (firstBadField block = none → ∀ c, ∀ timing codes : Nat, timing = (octetAt block 19).toNat →
           codes = (octetAt block 20).toNat → c = ({
             role := if octetAt block 0 = 2 then .locomotive else .portable, station := wordAt block 1, homeTeam := octetAt block 3,
             rangeLow := octetAt block 4, rangeHigh := octetAt block 5, busyThreshold := (wordAt block 6).toNat,
             hysteresis := (octetAt block 8).toNat, crowdThreshold := (wordAt block 9).toNat,
             decreaseFactor := (octetAt block 11).toNat, increase := (octetAt block 12).toNat, rMin := (wordAt block 13).toNat,
             rInit := (wordAt block 15).toNat, rMax := (wordAt block 17).toNat, wBaseCode := BitVec.ofNat 2 (timing % 4),
             readbackBaseCode := BitVec.ofNat 2 (timing / 4 % 4), agingCode := BitVec.ofNat 2 (timing / 16 % 4),
             ganged := decide (timing / 64 % 2 = 1), tight := decide (timing / 128 = 1), supervisionCode := BitVec.ofNat 3 (codes % 8),
             attemptLimit := codes / 8 % 16 } : Config) →
           ConfigSound c ∧
           exec (.configOctetRead x) s = .next (settle
             { s with
               cfl := { part := .running, resetHeld := false, fault := .none, holding := [], inForce := some c }
               cau := { sense := .clear, occupancy := 0, average := 0, crowded := false, crowdedHeard := false, rate := c.rInit, credit := 256,
                        paceSamples := 0, staging := none, onAir := none, onAirSamples := 0, access := .idle, gapCount := 0, slotCount := 0,
                        gateOpen := false, allstopRequest := none, generator := some (s.cau.generator.getD (generatorSeed c.station)) }
               asu := { contexts := List.replicate 24 none, rcq := [], exq := [], agingMs := 0 }
               bpl.free := List.finRange 128
               bpl.held := []
               odu := { ool := List.replicate 8 none, rsq := [], rbq := [], callNumber := s.odu.callNumber, nextSequence := 0,
                        finishedSlots := [] }
               tmu := { attached := true, leavePending := false, homeTeam := c.homeTeam, peers := [], control := .unheld,
                        presenceRequest := some .joining, presenceCount := 0, silenceMs := 0, presenceMs := 0 }
               stu := { causes := if c.role = .locomotive then { noHolder := true, cab := s.stu.cabInput } else {}, lastAllstop := none,
                        hold := false, repeatCount := 0, seriesTeam := none, cabInput := s.stu.cabInput, keyInput := s.stu.keyInput }
               tpt.flags := {}
               tpt.range := some (c.rangeLow, c.rangeHigh) })))))

/-- BURST_SYNC starts a reception with its stamp; a reception cut short counts one check failure (01 section 1.6; 01 section 1.8).
-/
def Obligations.SyncStartsAndShortBurstEndsAReception : Prop :=
  ∀ s : State, s.cfl.part = .running →
    (s.cau.access ≠ .onAir →
      exec .burstSync s = .next (drivePins
        { s with
          rxc.reception := some s.time
          rxc.counts.checkFailures :=
            if s.rxc.reception.isSome then BitVec.ofNat 16 (min 65535 (s.rxc.counts.checkFailures.toNat + 1))
            else s.rxc.counts.checkFailures })) ∧
    (s.rxc.reception.isSome = true →
      exec .shortBurst s = .next (drivePins
        { s with
          rxc.reception := none
          rxc.counts.checkFailures := BitVec.ofNat 16 (min 65535 (s.rxc.counts.checkFailures.toNat + 1)) }))

/-- A burst that fails its CRC is a degraded all-stop or a check failure (R11). The arbiter then looks, as R45 has it at such an
event; that it does so at the event's end is log entry 5. -/
def Obligations.FailedBurstsAreHonouredOrCounted : Prop :=
  ∀ (octets : List Byte) (stamp : Stamp) (s : State), Receiving stamp s → crcGood octets = false →
    ∀ b, b = readBurst octets →
      ((b.kind = .allstop ∧ b.body.take 8 = allstopPattern ∧ (b.team = 0 ∨ IsHome b.team s ∨ InRange b.team s)) →
        exec (.burstReceived octets) s = .next (settle (heardAllstop stamp { s with rxc.reception := none }))) ∧
      (¬ (b.kind = .allstop ∧ b.body.take 8 = allstopPattern ∧ (b.team = 0 ∨ IsHome b.team s ∨ InRange b.team s)) →
        exec (.burstReceived octets) s = .next (settle
          { s with
            rxc.reception := none
            rxc.counts.checkFailures := BitVec.ofNat 16 (min 65535 (s.rxc.counts.checkFailures.toNat + 1)) }))

/-- A good burst is dropped, counted foreign, honoured as an all-stop, or taken for the home team (R12, R13). The arbiter then
looks, as R45 has it at such an event; that it does so at the event's end is log entry 5. -/
def Obligations.GoodBurstsAreClassified : Prop :=
  (∀ (octets : List Byte) (stamp : Stamp) (s : State), Receiving stamp s → crcGood octets = true →
    ∀ b, b = readBurst octets →
      (b.sender = s.config.station →
        exec (.burstReceived octets) s = .next (settle
          { s with
            rxc.reception := none
            rxc.counts.burstsGood := countUp s.rxc.counts.burstsGood
            tpt.flags.ownNumberHeard := true })) ∧
      (b.sender ≠ s.config.station → b.sender = 0 ∨ b.sender = 65535 →
        exec (.burstReceived octets) s = .next (settle
          { s with
            rxc.reception := none
            rxc.counts.burstsGood := countUp s.rxc.counts.burstsGood
            rxc.counts.foreignBursts := countUp s.rxc.counts.foreignBursts })) ∧
      (b.sender ≠ s.config.station → b.sender ≠ 0 → b.sender ≠ 65535 →
        (b.kind = .allstop → b.team = 0 ∨ (¬ IsHome b.team s ∧ InRange b.team s) →
          exec (.burstReceived octets) s = .next (settle (heardAllstop stamp (heardGood b s)))) ∧
        (b.team ≠ 0 → IsHome b.team s →
          exec (.burstReceived octets) s = .next (settle (routeHomeBurst b stamp (peerStep b stamp (heardGood b s))))) ∧
        (b.team = 0 ∨ ¬ IsHome b.team s → b.kind ≠ .allstop ∨ (b.team ≠ 0 ∧ ¬ InRange b.team s) →
          exec (.burstReceived octets) s = .next (settle
            { heardGood b s with rxc.counts.foreignBursts := countUp s.rxc.counts.foreignBursts })))) ∧
  ∀ (b : Burst) (stamp : Stamp) (s : State),
    (b.kind = .call → routeHomeBurst b stamp s = callArrived b stamp s) ∧
     (b.kind = .call → (b.target = s.config.station ∨ b.target = 65535) →
      routeHomeBurst b stamp s = if b.index = 0 then fragmentZero b stamp s else laterFragment b b.index.toNat stamp s) ∧
    (b.kind = .readback → routeHomeBurst b stamp s = if b.target = s.config.station then readbackArrived b s else s) ∧
    (b.kind = .presence → routeHomeBurst b stamp s =
      { s with tmu.peers := s.tmu.peers.map (fun p => if p.station = b.sender ∧ p.role = .locomotive then
          { p with reportedHolder := some (wordAt b.body 0), reportedCauses := some (Causes.ofByte (octetAt b.body 2)) } else p) }) ∧
    (b.kind = .allstop → routeHomeBurst b stamp s = heardAllstop stamp s)

/-- The peer step refreshes the sender's entry, or enters it, evicting the longest silent LOST entry of a full table (07 section
7.2; log entry 16). That the entries stand in ascending station order is the model's form (log entry 16): R111 gives them none. -/
def Obligations.PeerStepRefreshesEntersOrEvicts : Prop :=
  (∀ (b : Burst) (stamp : Stamp) (s : State),
     (b.kind ≠ .presence ∨ b.presence ≠ .leaving →
       ((∃ p ∈ s.tmu.peers, p.station = b.sender) →
         peerStep b stamp s = { s with tmu.peers := s.tmu.peers.map (fun p =>
           if p.station = b.sender then
             { p with
               silence := 0
               link := .active
               lastHeard := stamp
               lastDelivered := if b.kind = .presence ∧ b.presence = .joining then none else p.lastDelivered }
             else p) }) ∧
       ((∀ p ∈ s.tmu.peers, p.station ≠ b.sender) → ∀ new, new = ({
           station := b.sender, role := b.role, link := .active, silence := 0, lastHeard := stamp, reportedHolder := none,
           reportedCauses := none, lastDelivered := none } : Peer) →
         (s.tmu.peers.length < 16 → peerStep b stamp s = { s with tmu.peers := insertPeer new s.tmu.peers }) ∧
         (16 ≤ s.tmu.peers.length →
           ((∀ p ∈ s.tmu.peers, p.link = .lost → isLocomotive s = true ∧ s.tmu.control.holder = some p.station) →
             peerStep b stamp s = { s with tpt.flags.peerTableFull := true }) ∧
           (s.tmu.peers.Pairwise (fun p q => p.station.toNat < q.station.toNat) →
             ∀ e ∈ s.tmu.peers, e.link = .lost → ¬ (isLocomotive s = true ∧ s.tmu.control.holder = some e.station) →
               (∀ p ∈ s.tmu.peers, p.link = .lost → ¬ (isLocomotive s = true ∧ s.tmu.control.holder = some p.station) →
                 p.silence < e.silence ∨ (p.silence = e.silence ∧ e.station.toNat ≤ p.station.toNat)) →
               peerStep b stamp s =
                 { s with tmu.peers := insertPeer new (s.tmu.peers.filter (fun p => decide (p.station ≠ e.station))) })))) ∧
     (b.kind = .presence → b.presence = .leaving → (∀ p ∈ s.tmu.peers, p.station ≠ b.sender) → peerStep b stamp s = s)) ∧
  (∀ (new : Peer) (peers : List Peer),
    (∀ p, p ∈ insertPeer new peers ↔ p = new ∨ p ∈ peers) ∧ (insertPeer new peers).length = peers.length + 1 ∧
    ((∀ p ∈ peers, p.station ≠ new.station) → peers.Pairwise (fun p q => p.station.toNat < q.station.toNat) →
      (insertPeer new peers).Pairwise (fun p q => p.station.toNat < q.station.toNat)))

/-- A PRESENCE refreshes, enters, forgets or removes its sender's entry by its flag, and reports a locomotive's holder and causes
(07 section 7.2; log entry 16). That the entries stand in ascending station order is the model's form (log entry 16). The arbiter
then looks, as R45 has it at such an event; that it does so at the event's end is log entry 5. -/
def Obligations.PresenceActsOnItsSendersEntry : Prop :=
  ∀ (octets : List Byte) (stamp : Stamp) (s : State), Receiving stamp s → crcGood octets = true →
    ∀ b, b = readBurst octets → FromMember b s → b.kind = .presence →
    ((∃ p ∈ s.tmu.peers, p.station = b.sender) →
      (b.presence = .leaving → ∀ dropped, dropped = (isLocomotive s && decide (s.tmu.control.holder = some b.sender)) →
        exec (.burstReceived octets) s = .next (settle
          { heardGood b s with
            tmu.peers := s.tmu.peers.filter (fun p => decide (p.station ≠ b.sender))
            tmu.control := if dropped then .unheld else s.tmu.control
            stu.causes.noHolder := s.stu.causes.noHolder || dropped
            tpt.flags.causesChanged := s.tpt.flags.causesChanged || (dropped && !s.stu.causes.noHolder) })) ∧
      (b.presence ≠ .leaving →
        exec (.burstReceived octets) s = .next (settle
          { heardGood b s with
            tmu.peers := s.tmu.peers.map (fun p => if p.station = b.sender then
              { p with
                silence := 0
                link := .active
                lastHeard := stamp
                lastDelivered := if b.presence = .joining then none else p.lastDelivered
                reportedHolder := if p.role = .locomotive then some (wordAt b.body 0) else p.reportedHolder
                reportedCauses := if p.role = .locomotive then some (Causes.ofByte (octetAt b.body 2)) else p.reportedCauses }
              else p) }))) ∧
    ((∀ p ∈ s.tmu.peers, p.station ≠ b.sender) →
      (b.presence = .leaving → exec (.burstReceived octets) s = .next (settle (heardGood b s))) ∧
      (b.presence ≠ .leaving → ∀ new, new = ({
          station := b.sender, role := b.role, link := .active, silence := 0, lastHeard := stamp
          reportedHolder := if b.role = .locomotive then some (wordAt b.body 0) else none
          reportedCauses := if b.role = .locomotive then some (Causes.ofByte (octetAt b.body 2)) else none
          lastDelivered := none } : Peer) →
        (s.tmu.peers.length < 16 →
          exec (.burstReceived octets) s = .next (settle { heardGood b s with tmu.peers := insertPeer new s.tmu.peers })) ∧
        (16 ≤ s.tmu.peers.length →
          ((∀ p ∈ s.tmu.peers, p.link = .lost → isLocomotive s = true ∧ s.tmu.control.holder = some p.station) →
            exec (.burstReceived octets) s = .next (settle { heardGood b s with tpt.flags.peerTableFull := true })) ∧
          (s.tmu.peers.Pairwise (fun p q => p.station.toNat < q.station.toNat) →
            ∀ e ∈ s.tmu.peers, e.link = .lost → ¬ (isLocomotive s = true ∧ s.tmu.control.holder = some e.station) →
              (∀ p ∈ s.tmu.peers, p.link = .lost → ¬ (isLocomotive s = true ∧ s.tmu.control.holder = some p.station) →
                p.silence < e.silence ∨ (p.silence = e.silence ∧ e.station.toNat ≤ p.station.toNat)) →
              exec (.burstReceived octets) s = .next (settle
                { heardGood b s with
                  tmu.peers := insertPeer new (s.tmu.peers.filter (fun p => decide (p.station ≠ e.station))) })))))

/-- Fragment 0 is a repeat, or starts a call after superseding its sender's older one (R55, R56). -/
def Obligations.FragmentZeroStartsRepeatsOrSupersedes : Prop :=
  ∀ (b : Burst) (stamp : Stamp) (s : State),
    (∀ i c, contextOf b.sender s = some (i, c) →
      fragmentZero b stamp s =
        if c.callNumber = b.callNumber then { s with rxc.counts.duplicateCalls := countUp s.rxc.counts.duplicateCalls }
        else startCall b stamp (abandon i c (raiseException
          { code := .superseded, sender := b.sender, callNumber := c.callNumber, index := c.next, stamp := stamp } s))) ∧
    (contextOf b.sender s = none → fragmentZero b stamp s = startCall b stamp s) ∧
    (firstEmpty s.asu.contexts = none →
      startCall b stamp s = raiseException
        { code := .noContext, sender := b.sender, callNumber := b.callNumber, index := 0, stamp := stamp } s) ∧
    (∀ i, firstEmpty s.asu.contexts = some i → s.bpl.free = [] →
      startCall b stamp s = raiseException
        { code := .noBuffer, sender := b.sender, callNumber := b.callNumber, index := 0, stamp := stamp } s) ∧
    (∀ i buffer free, firstEmpty s.asu.contexts = some i → s.bpl.free = buffer :: free →
      ∀ taken, taken = { s with bpl.free := free, bpl.memory := writeBuffer s.bpl.memory buffer b.body } →
      ∀ c, c = ({
                  sender := b.sender, senderRole := b.role, callNumber := b.callNumber, target := b.target, callType := octetAt b.body 0,
                  length := (octetAt b.body 1).toNat, confirm := b.confirm, next := 1, buffers := [buffer], crowdedSeen := b.crowded,
                  firstStamp := stamp, age := 0 } : Context) →
        startCall b stamp s =
          if CallType.ofByte (octetAt b.body 0) = none then
            returnBuffers [buffer] (raiseException
              { code := .badType, sender := b.sender, callNumber := b.callNumber, index := 0, stamp := stamp } taken)
          else if b.last then completeCall i c 0 stamp taken
          else { taken with asu.contexts := s.asu.contexts.set i (some c) })

/-- A fragment of index 1 to 7 is an orphan, a repeat, out of order, or taken in order (R57, R58). -/
def Obligations.LaterFragmentsAreSortedByIndex : Prop :=
  ∀ (b : Burst) (k : Nat) (stamp : Stamp) (s : State),
    (contextFor b.sender b.callNumber s = none →
      laterFragment b k stamp s = { s with rxc.counts.orphanFragments := countUp s.rxc.counts.orphanFragments }) ∧
    (∀ i c, contextFor b.sender b.callNumber s = some (i, c) →
      (k < c.next → laterFragment b k stamp s = { s with rxc.counts.duplicateCalls := countUp s.rxc.counts.duplicateCalls }) ∧
      (c.next < k →
        laterFragment b k stamp s = abandon i c (raiseException
          { code := .outOfOrder, sender := b.sender, callNumber := b.callNumber, index := k, stamp := stamp } s)) ∧
      (k = c.next → k = 7 → b.last = false →
        laterFragment b k stamp s = abandon i c (raiseException
          { code := .lengthMismatch, sender := b.sender, callNumber := b.callNumber, index := 7, stamp := stamp } s)) ∧
      (k = c.next → (k ≠ 7 ∨ b.last = true) → s.bpl.free = [] →
        laterFragment b k stamp s = abandon i c (raiseException
          { code := .noBuffer, sender := b.sender, callNumber := b.callNumber, index := k, stamp := stamp } s)) ∧
      (k = c.next → (k ≠ 7 ∨ b.last = true) → ∀ buffer free, s.bpl.free = buffer :: free →
        ∀ taken, taken = { s with bpl.free := free, bpl.memory := writeBuffer s.bpl.memory buffer b.body } →
        ∀ longer, longer = { c with buffers := c.buffers ++ [buffer], age := 0, crowdedSeen := c.crowdedSeen || b.crowded } →
          laterFragment b k stamp s =
            if b.last then completeCall i longer k stamp taken
            else { taken with asu.contexts := s.asu.contexts.set i (some { longer with next := k + 1 }) }))

/-- A completed call is first held to its length, then to its sender's last-delivered record (R60, R62). -/
def Obligations.CompletionTestsLengthThenDuplicate : Prop :=
  ∀ (i : Nat) (c : Context) (index : Nat) (stamp : Stamp) (s : State) (d : Digest),
    d = digest (callOctets c.callType c.length ((readBuffers s.bpl.memory c.buffers).drop 2)) →
    (c.buffers.length ≠ fragmentCount c.length →
      completeCall i c index stamp s = abandon i c (raiseException
        { code := .lengthMismatch, sender := c.sender, callNumber := c.callNumber, index := index, stamp := stamp } s)) ∧
    (c.buffers.length = fragmentCount c.length →
      (∀ p v, findPeer c.sender s = some p → p.lastDelivered = some { callNumber := c.callNumber, digest := d, verdict := v } →
        ∀ counted, counted = { abandon i c s with rxc.counts.duplicateCalls := countUp s.rxc.counts.duplicateCalls } →
        ∀ offered, offered = (if c.confirm then
            offerReadback { sender := c.sender, callNumber := c.callNumber, callType := c.callType, digest := d, verdict := v } counted
          else counted) →
          completeCall i c index stamp s =
            if c.callType = 3 then setCauses { s.stu.causes with radioStop := true } offered else offered) ∧
      ((∀ p v, findPeer c.sender s = some p → p.lastDelivered ≠ some { callNumber := c.callNumber, digest := d, verdict := v }) →
        completeCall i c index stamp s = completeNew i c d index stamp s))

/-- A part-acted call is acted on, read back and remembered, and delivered if accepted and there is room; what an offer and an
exception do (R64). -/
def Obligations.PartActedCallsAreActedOnWhateverTheRoom : Prop :=
  (∀ (i : Nat) (c : Context) (d : Digest) (index : Nat) (stamp : Stamp) (s t : State) (v : Verdict), isLocomotive s = true →
     (c.callType = 3 ∨ c.callType = 4 ∨ c.callType = 6 ∨ c.callType = 7) → decideVerdict c.sender c.callType s = (v, t) →
     ∀ offered, offered = (if c.confirm then
         offerReadback { sender := c.sender, callNumber := c.callNumber, callType := c.callType, digest := d, verdict := v } t else t) →
     ∀ stored, stored = { offered with tmu.peers := t.tmu.peers.map (fun p =>
         if p.station = c.sender then { p with lastDelivered := some { callNumber := c.callNumber, digest := d, verdict := v } } else p) } →
       completeNew i c d index stamp s =
         if v = .accepted then
           if t.asu.rcq.length < 16 then
             { stored with
               asu.contexts := t.asu.contexts.set i none
               asu.rcq := t.asu.rcq ++
                 [{ sender := c.sender, senderRole := c.senderRole, target := c.target, callNumber := c.callNumber, callType := c.callType,
                    length := c.length, buffers := c.buffers, firstStamp := c.firstStamp, lastStamp := stamp, confirm := c.confirm,
                    fromHolder := decide (t.tmu.control.holder = some c.sender), crowdedSeen := c.crowdedSeen, verdict := .accepted }] }
           else
             abandon i c (raiseException
               { code := .rcqFull, sender := c.sender, callNumber := c.callNumber, index := index, stamp := stamp } stored)
         else abandon i c stored) ∧
  (∀ s : State,
     (∀ e : ReadbackEntry,
       ((∃ x ∈ s.odu.rbq, x.sender = e.sender ∧ x.callNumber = e.callNumber) → offerReadback e s = s) ∧
       (8 ≤ s.odu.rbq.length → offerReadback e s = s) ∧
       ((∀ x ∈ s.odu.rbq, ¬ (x.sender = e.sender ∧ x.callNumber = e.callNumber)) → s.odu.rbq.length < 8 →
         offerReadback e s = { s with odu.rbq := s.odu.rbq ++ [e] })) ∧
     (∀ e : ExceptionEntry,
       (s.asu.exq.length < 16 → raiseException e s = { s with asu.exq := s.asu.exq ++ [e] }) ∧
       (16 ≤ s.asu.exq.length → raiseException e s = { s with tpt.flags.exqOverflow := true })) ∧
     (∀ (i : Nat) (c : Context),
       abandon i c s = { s with bpl.free := s.bpl.free ++ c.buffers, asu.contexts := s.asu.contexts.set i none }))

/-- A processor-acted call is delivered if the RCQ has room; a MOVE or COUNTDOWN only from the holder while the cause set is empty
(R65, R119). -/
def Obligations.ProcessorActedCallsNeedRoom : Prop :=
  (∀ (i : Nat) (c : Context) (d : Digest) (index : Nat) (stamp : Stamp) (s : State), isLocomotive s = true →
     (c.callType = 1 ∨ c.callType = 2) →
     ∀ answered, answered = (fun (v : Verdict) (t : State) => storeDelivered c.sender { callNumber := c.callNumber, digest := d, verdict := v }
       (if c.confirm then
         offerReadback { sender := c.sender, callNumber := c.callNumber, callType := c.callType, digest := d, verdict := v } t else t)) →
     (s.tmu.control.holder ≠ some c.sender → completeNew i c d index stamp s = abandon i c (answered .refusedNotHolder s)) ∧
     (s.tmu.control.holder = some c.sender → s.stu.causes ≠ {} →
       completeNew i c d index stamp s = abandon i c (answered .refusedStopped s)) ∧
     (s.tmu.control.holder = some c.sender → s.stu.causes = {} →
       completeNew i c d index stamp s =
         if s.asu.rcq.length < 16 then
           answered .accepted
             { s with
               asu.contexts := s.asu.contexts.set i none
               asu.rcq := s.asu.rcq ++
                 [{ sender := c.sender, senderRole := c.senderRole, target := c.target, callNumber := c.callNumber, callType := c.callType,
                    length := c.length, buffers := c.buffers, firstStamp := c.firstStamp, lastStamp := stamp, confirm := c.confirm,
                    fromHolder := true, crowdedSeen := c.crowdedSeen, verdict := .accepted }] }
         else
           abandon i c (raiseException
             { code := .rcqFull, sender := c.sender, callNumber := c.callNumber, index := index, stamp := stamp } s))) ∧
  (∀ (i : Nat) (c : Context) (d : Digest) (index : Nat) (stamp : Stamp) (s : State),
     (isLocomotive s = false ∨
       (c.callType ≠ 1 ∧ c.callType ≠ 2 ∧ c.callType ≠ 3 ∧ c.callType ≠ 4 ∧ c.callType ≠ 6 ∧ c.callType ≠ 7)) →
     (s.asu.rcq.length < 16 → ∀ placed offered,
       placed = { s with
         asu.contexts := s.asu.contexts.set i none
         asu.rcq := s.asu.rcq ++
           [{ sender := c.sender, senderRole := c.senderRole, target := c.target, callNumber := c.callNumber, callType := c.callType,
              length := c.length, buffers := c.buffers, firstStamp := c.firstStamp, lastStamp := stamp, confirm := c.confirm,
              fromHolder := isLocomotive s && decide (s.tmu.control.holder = some c.sender), crowdedSeen := c.crowdedSeen,
              verdict := .accepted }] } →
       offered = (if c.confirm then
         offerReadback { sender := c.sender, callNumber := c.callNumber, callType := c.callType, digest := d, verdict := .accepted } placed
         else placed) →
       completeNew i c d index stamp s = { offered with tmu.peers := s.tmu.peers.map (fun p =>
         if p.station = c.sender then { p with lastDelivered := some { callNumber := c.callNumber, digest := d, verdict := .accepted } }
         else p) }) ∧
     (16 ≤ s.asu.rcq.length →
       completeNew i c d index stamp s = abandon i c (raiseException
         { code := .rcqFull, sender := c.sender, callNumber := c.callNumber, index := index, stamp := stamp } s)))

/-- STOP, RELEASE, HANDOVER_TAKE and RELINQUISH get their verdicts and effects from the first row that fits (R121, R122). -/
def Obligations.ControlPassesByItsVerdicts : Prop :=
  (∀ (sender : Station) (s : State),
     (isLocomotive s = true →
       decideVerdict sender 3 s = (.accepted, { s with
         stu.causes.radioStop := true
         tpt.flags.causesChanged := s.tpt.flags.causesChanged || !s.stu.causes.radioStop }) ∧
       (s.tmu.control.holder ≠ some sender → decideVerdict sender 4 s = (.refusedNotHolder, s)) ∧
       (s.tmu.control.holder = some sender → s.stu.hold = true → decideVerdict sender 4 s = (.refusedTooSoon, s)) ∧
       (s.tmu.control.holder = some sender → s.stu.hold = false →
         decideVerdict sender 4 s = (.accepted, { s with
           stu.causes := releasedCauses s.stu.causes
           tpt.flags.causesChanged := s.tpt.flags.causesChanged || s.stu.causes.radioStop || s.stu.causes.allstop ||
             s.stu.causes.supervision }))) ∧
     (isLocomotive s = false → ∀ callType, decideVerdict sender callType s = (.accepted, s))) ∧
  (∀ (sender : Station) (s : State), isLocomotive s = true →
     (findPeer sender s = none → decideVerdict sender 6 s = (.refusedNoRoom, s)) ∧
     (∀ p, findPeer sender s = some p → p.role = .locomotive → decideVerdict sender 6 s = (.refusedNoOffer, s)) ∧
     (∀ p, findPeer sender s = some p → p.role = .portable →
       (s.tmu.control = .unheld →
         decideVerdict sender 6 s = (.accepted, { s with
           tmu.control := .held sender
           stu.causes.noHolder := false
           tpt.flags.causesChanged := s.tpt.flags.causesChanged || s.stu.causes.noHolder })) ∧
       (s.tmu.control.holder = some sender → decideVerdict sender 6 s = (.accepted, s)) ∧
       (∀ holder stamp, holder ≠ sender → s.tmu.control = .offerPending holder sender stamp →
         decideVerdict sender 6 s = (.accepted, { s with tmu.control := .held sender })) ∧
       (∀ holder, holder ≠ sender → s.tmu.control = .held holder → decideVerdict sender 6 s = (.refusedNoOffer, s)) ∧
       (∀ holder offered stamp, holder ≠ sender → offered ≠ sender → s.tmu.control = .offerPending holder offered stamp →
         decideVerdict sender 6 s = (.refusedNoOffer, s))) ∧
     (s.tmu.control.holder = some sender →
       decideVerdict sender 7 s = (.accepted, { s with
         tmu.control := .unheld
         stu.causes.noHolder := true
         tpt.flags.causesChanged := s.tpt.flags.causesChanged || !s.stu.causes.noHolder })) ∧
     (s.tmu.control.holder ≠ some sender → decideVerdict sender 7 s = (.refusedNotHolder, s)) ∧
     decideVerdict sender 5 s = (.accepted, s) ∧ partActed 5 s = false)

/-- Of overheard fragments only a whole one-fragment offer from the holder, or a STOP heard GANGED, acts (R59, R124, R125). -/
def Obligations.OverheardCallsActOnLocomotives : Prop :=
  ∀ (b : Burst) (stamp : Stamp) (s : State), b.target ≠ s.config.station → b.target ≠ 65535 →
    (¬ (b.index = 0 ∧ b.last = true) → callArrived b stamp s = s) ∧
    (b.index = 0 → b.last = true →
      (isLocomotive s = true → octetAt b.body 0 = 5 → s.tmu.control.holder = some b.sender →
        callArrived b stamp s = { s with tmu.control := .offerPending b.sender b.target stamp }) ∧
      (octetAt b.body 0 = 5 → s.tmu.control.holder ≠ some b.sender → callArrived b stamp s = s) ∧
      (isLocomotive s = true → octetAt b.body 0 = 3 →
        callArrived b stamp s =
          if s.config.ganged then
            { s with
              stu.causes.radioStop := true
              tpt.flags.causesChanged := s.tpt.flags.causesChanged || !s.stu.causes.radioStop }
          else s) ∧
      (octetAt b.body 0 ≠ 5 → octetAt b.body 0 ≠ 3 → callArrived b stamp s = s) ∧
      (isLocomotive s = false → callArrived b stamp s = s))

/-- A one-fragment STOP for a locomotive with a context and a buffer free leaves it stopped (07 section 7.6; 08 section 8.2; 04
section 4.5). -/
def Obligations.OneFragmentStopAlwaysStops : Prop :=
  ∀ (octets : List Byte) (stamp : Stamp) (s : State), Receiving stamp s → crcGood octets = true → isLocomotive s = true →
    ∀ b, b = readBurst octets → FromMember b s → ForUs b s → b.kind = .call → b.index = 0 → b.last = true → octetAt b.body 0 = 3 →
      (octetAt b.body 1).toNat ≤ 20 → s.bpl.free ≠ [] → none ∈ s.asu.contexts →
      (∀ c ∈ inUse s.asu.contexts, c.sender = b.sender → c.callNumber ≠ b.callNumber) →
      ∃ t, exec (.burstReceived octets) s = .next t ∧ t.stu.causes.radioStop = true ∧ t.pins.stopd = true

/-- A read-back answers its member and may finish the order, or is counted stray (R96). -/
def Obligations.ReadbacksMatchOrStray : Prop :=
  ∀ (b : Burst) (s : State),
    ((∀ i o, orderAt i s = some o → o.callNumber = b.callNumber → o.state = .finished ∨ wordAt b.body 2 ≠ o.digest ∨
        ∀ m ∈ o.members, m.station = b.sender → m.answer ≠ none) ∨ 5 < (octetAt b.body 1).toNat →
      readbackArrived b s = { s with rxc.counts.strayReadbacks := countUp s.rxc.counts.strayReadbacks }) ∧
    (((inUse s.odu.ool).map Order.callNumber).Nodup →
      ∀ i o v, orderAt i s = some o → o.callNumber = b.callNumber → o.state ≠ .finished → wordAt b.body 2 = o.digest →
        (∃ m ∈ o.members, m.station = b.sender ∧ m.answer = none) → Verdict.ofByte (octetAt b.body 1) = some v →
        ∀ members, members = o.members.map (fun m => if m.station = b.sender ∧ m.answer = none then { m with answer := some v } else m) →
        ∀ marked, marked = { s with
            odu.ool := s.odu.ool.set i (some { o with members := members })
            cau.rate := if v = .accepted then min s.config.rMax (s.cau.rate + s.config.increase) else s.cau.rate } →
          ((∃ m ∈ members, m.answer = none) → readbackArrived b s = marked) ∧
          ((∀ m ∈ members, m.answer ≠ none) →
            ((∀ m ∈ members, m.answer = some .accepted) → readbackArrived b s = finishOrder i .done marked) ∧
            ((∀ m ∈ members, m.answer ≠ some .accepted) → readbackArrived b s = finishOrder i .refused marked) ∧
            ((∃ m ∈ members, m.answer = some .accepted) → (∃ m ∈ members, m.answer ≠ some .accepted) →
              readbackArrived b s = finishOrder i .partial_ marked)))

/-- A level sample moves the sense state, counts a busy sample, and times the gap, the slot or the burst on air (R18). -/
def Obligations.LevelSamplesSenseCountAndTimeTheAccess : Prop :=
  ∀ (level : Level) (s : State), s.cfl.part = .running → sampleWaits s = false →
    (s.cau.access = .onAir →
      exec (.levelSample level) s = .next (drivePins
        { s with
          cau.occupancy := s.cau.occupancy + 1
          cau.paceSamples := s.cau.paceSamples + 1
          cau.onAirSamples := s.cau.onAirSamples + 1 })) ∧
    (s.cau.access ≠ .onAir →
      ∀ busy, busy = (s.rxc.reception.isSome ||
        (if s.cau.sense = .clear then decide (s.config.busyThreshold ≤ level.toNat)
         else decide (max 1 (s.config.busyThreshold - s.config.hysteresis) ≤ level.toNat))) →
      exec (.levelSample level) s = .next (drivePins
        { s with
          cau.sense := if busy then .busy else .clear
          cau.occupancy := if busy then s.cau.occupancy + 1 else s.cau.occupancy
          cau.paceSamples := s.cau.paceSamples + 1
          cau.access := if s.cau.access = .backoff ∧ busy = true then .gap else s.cau.access
          cau.gapCount := if s.cau.access = .idle then s.cau.gapCount else if busy then 0
            else if s.cau.access = .gap then s.cau.gapCount + 1 else s.cau.gapCount
          cau.slotCount := if s.cau.access = .backoff then (if busy then 0 else s.cau.slotCount + 1) else s.cau.slotCount }))

/-- The pace timer expiry folds the occupancy, sets the crowded state, slows on crowding heard and earns credit (R21). The arbiter
then looks, as R45 has it at such an event; that it does so at the event's end is log entry 5. -/
def Obligations.PaceTimerExpiryTakesFourSteps : Prop :=
  ∀ s : State, s.cfl.part = .running → 200 ≤ s.cau.paceSamples →
    ∀ average rate, average = s.cau.average - s.cau.average / 4 + s.cau.occupancy →
      rate = (if s.cau.crowdedHeard then max s.config.rMin (s.cau.rate - s.cau.rate / 2 ^ s.config.decreaseFactor) else s.cau.rate) →
      exec .paceTimerExpiry s = .next (settle
        { s with
          cau.average := average
          cau.occupancy := 0
          cau.paceSamples := 0
          cau.crowded := decide (s.config.crowdThreshold ≤ average)
          cau.crowdedHeard := false
          cau.rate := rate
          cau.credit := min 1024 (s.cau.credit + rate) })

/-- A complete gap, a complete slot or the force timer puts the staged burst on air, and its source is emptied (03 section 3.2; 03
section 3.5; 01 section 1.6). The arbiter then looks, as R45 has it at such an event; that it does so at the event's end is log
entry 5. -/
def Obligations.BurstsGoOnAir : Prop :=
  (∀ (st : Staged) (s : State), s.cfl.part = .running → s.cau.staging = some st →
     (s.cau.access = .gap → 8 ≤ s.cau.gapCount →
       exec .gapComplete s = .next (settle
         (if st.backoff = 0 then goOnAir s else { s with cau.access := .backoff, cau.slotCount := 0 }))) ∧
     (s.cau.access = .backoff → 4 ≤ s.cau.slotCount →
       ∀ counted, counted = { s with cau.staging := some { st with backoff := st.backoff - 1 }, cau.slotCount := 0 } →
         exec .slotComplete s = .next (settle (if st.backoff ≤ 1 then goOnAir counted else counted)))) ∧
  (∀ (st : Staged) (s : State), s.cau.staging = some st →
     ∀ keyed, keyed = { s with
         rxc.reception := none
         cau.staging := none
         cau.onAir := some { burst := st.burst, source := st.source }
         cau.onAirSamples := 0
         cau.access := .onAir
         cau.gapCount := 0
         cau.slotCount := 0 } →
     (∀ team, st.source = .allstop team → goOnAir s = keyed) ∧
     (st.source = .readback → goOnAir s = { keyed with odu.rbq := s.odu.rbq.tail }) ∧
     (∀ flag, st.source = .presence flag → goOnAir s = { keyed with tmu.presenceRequest := none }) ∧
     (∀ slot index o, st.source = .fragment slot index → orderAt slot s = some o →
       goOnAir s = { keyed with odu.ool := s.odu.ool.set slot (some { o with place := .onAir }) })) ∧
  (∀ (st : Staged) (s : State), s.cfl.part = .running → s.cau.staging = some st →
     (st.force = .running 0 →
       (s.cau.access ≠ .onAir → exec .forceTimerExpiry s = .next (settle (goOnAir s))) ∧
       (s.cau.access = .onAir →
         exec .forceTimerExpiry s = .next (settle { s with cau.staging := some { st with force := .expired } }))) ∧
     (∀ n, st.force = .running (n + 1) → exec .forceTimerExpiry s = .next s))

/-- The completion of a READBACK or PRESENCE restarts the presence count, and a joining one opens the gate (03 section 3.2; 03
section 3.5; 07 section 7.4; 07 section 7.1; log entry 5; log entry 10). That a leaving PRESENCE completes the leave only while no
leaving request is outstanding is deduced, the model's choice (log entry 10). That the arbiter looks at the event's end is log
entry 5. -/
def Obligations.OnAirCompletionReportsThenLeaves : Prop :=
  ∀ (b : OnAir) (s : State), s.cfl.part = .running → s.cau.access = .onAir → 60 ≤ s.cau.onAirSamples → s.cau.onAir = some b →
    ∀ silent, silent = { s with cau.onAir := none, tmu.presenceCount := 0 } →
    (b.source = .readback ∨ b.source = .presence .normal → exec .onAirCompletion s = .next (settle (leaveOnAir silent))) ∧
    (b.source = .presence .joining → exec .onAirCompletion s = .next (settle (leaveOnAir { silent with cau.gateOpen := true }))) ∧
    (b.source = .presence .leaving →
      exec .onAirCompletion s = .next (settle (leaveOnAir
        (if s.tmu.leavePending = true ∧ s.tmu.presenceRequest ≠ some .leaving then
          { clearTeam silent with tmu.leavePending := false, tmu.attached := false }
        else silent)))) ∧
    (∀ t : State,
      (∀ st, t.cau.staging = some st → st.force = .expired → leaveOnAir t = goOnAir t) ∧
      (∀ st, t.cau.staging = some st → st.force ≠ .expired →
        leaveOnAir t = { t with cau.access := .gap, cau.gapCount := 0, cau.slotCount := 0, cau.onAirSamples := 0 }) ∧
      (t.cau.staging = none →
        leaveOnAir t = { t with cau.access := .idle, cau.gapCount := 0, cau.slotCount := 0, cau.onAirSamples := 0 }))

/-- The completion of a fragment advances its order, and the last one finishes it or starts the read-back wait (R93). The arbiter
then looks, as R45 has it at such an event; that it does so at the event's end is log entry 5. -/
def Obligations.FragmentCompletionAdvancesOrEndsTheAttempt : Prop :=
  ∀ (slot index : Nat) (burst : List Byte) (s : State), s.cfl.part = .running → s.cau.access = .onAir → 60 ≤ s.cau.onAirSamples →
    s.cau.onAir = some { burst := burst, source := .fragment slot index } →
    ∀ silent, silent = { s with cau.onAir := none, tmu.presenceCount := 0 } →
    (∀ o, orderAt slot s = some o → o.state = .sending → o.place = .onAir → o.next = index →
      ∀ placed, placed = (fun o' : Order => { silent with odu.ool := s.odu.ool.set slot (some o') }) →
      (o.cancelPending = true →
        exec .onAirCompletion s = .next (settle (leaveOnAir (finishOrder slot .cancelled (placed { o with place := .none }))))) ∧
      (o.cancelPending = false → index + 1 < fragmentCount o.length →
        exec .onAirCompletion s = .next (settle (leaveOnAir (placed { o with place := .none, next := index + 1 })))) ∧
      (o.cancelPending = false → fragmentCount o.length ≤ index + 1 →
        (o.confirm = false →
          exec .onAirCompletion s = .next (settle (leaveOnAir (finishOrder slot .done (placed { o with place := .none }))))) ∧
        (o.confirm = true → o.members = [] →
          exec .onAirCompletion s = .next (settle (leaveOnAir (finishOrder slot .noPeers (placed { o with place := .none }))))) ∧
        (o.confirm = true → o.members ≠ [] → (∀ m ∈ o.members, m.answer ≠ none) →
          exec .onAirCompletion s =
            .next (settle (leaveOnAir (finishOrder slot (answersOutcome o.members) (placed { o with place := .none }))))) ∧
        (o.confirm = true → (∃ m ∈ o.members, m.answer = none) →
          exec .onAirCompletion s = .next (settle (leaveOnAir (promote (placed
            { o with
              place := .none
              state := .awaitReadback
              wait := some ((if s.config.readbackBaseCode = 0 then 250 else if s.config.readbackBaseCode = 1 then 400
                else if s.config.readbackBaseCode = 2 then 600 else 1000) + 40 * o.members.length) }))))))) ∧
    ((∀ o, orderAt slot s = some o → ¬ (o.state = .sending ∧ o.place = .onAir ∧ o.next = index)) →
      exec .onAirCompletion s = .next (settle (leaveOnAir silent)))

/-- Each completed ALLSTOP lowers the repeat count, and asks for another while it is above 0 (R135). The arbiter then looks, as
R45 has it at such an event; that it does so at the event's end is log entry 5. -/
def Obligations.AllstopCompletionCountsTheSeriesDown : Prop :=
  ∀ (team : Team) (burst : List Byte) (s : State), s.cfl.part = .running → s.cau.access = .onAir → 60 ≤ s.cau.onAirSamples →
    s.cau.onAir = some { burst := burst, source := .allstop team } →
    ∀ silent, silent = { s with cau.onAir := none, tmu.presenceCount := 0 } →
    (s.stu.repeatCount = 0 → exec .onAirCompletion s = .next (settle (leaveOnAir silent))) ∧
    (s.stu.repeatCount = 1 →
      exec .onAirCompletion s = .next (settle (leaveOnAir { silent with stu.repeatCount := 0, stu.seriesTeam := none }))) ∧
    (∀ series, 2 ≤ s.stu.repeatCount → s.stu.seriesTeam = some series →
      exec .onAirCompletion s =
        .next (settle (leaveOnAir (requestAllstop series { silent with stu.repeatCount := s.stu.repeatCount - 1 }))))

/-- The send arbiter fills an empty staging register from the highest class that is ready (03 section 3.4; 10 section 10.4; log
entry 16; log entry 17). A full register is left alone, that of a staged joining PRESENCE included, as R34 and R45 have it; that
the read-backs of R163 go ahead of that PRESENCE where it is pending and not staged is the model's reading (DEDUCED, log entry
17). Class 4 reads R47's registers off the order's fragment place, the model's form (log entry 16), which O54 ties to the
registers. -/
def Obligations.ArbiterFillsFromTheHighestClass : Prop :=
  ∀ s : State,
    (s.cfl.part = .running → s.cau.staging = none →
      (∀ team, s.cau.allstopRequest = some team → arbitrate s = stage (.allstop team) { s with cau.allstopRequest := none }) ∧
      (s.cau.allstopRequest = none →
        (s.odu.rbq ≠ [] → arbitrate s = stage .readback s) ∧
        (s.odu.rbq = [] →
          (∀ flag, s.tmu.presenceRequest = some flag → arbitrate s = stage (.presence flag) s) ∧
          (s.tmu.presenceRequest = none →
            (((inUse s.odu.ool).filter isSending).length ≤ 1 →
              ∀ slot o, orderAt slot s = some o → o.state = .sending →
                arbitrate s = if o.place = .none ∧ 256 ≤ s.cau.credit ∧ s.cau.gateOpen = true then stage (.fragment slot o.next) s
                              else s) ∧
            ((∀ o ∈ inUse s.odu.ool, o.state ≠ .sending) → arbitrate s = s))))) ∧
    (s.cfl.part ≠ .running ∨ s.cau.staging ≠ none → arbitrate s = s)

/-- A staging advances the generator once, fixes the window by the kind, and draws B from it (R42). -/
def Obligations.StagingFixesWindowAndDraw : Prop :=
  ∀ (source : Source) (g : BitVec 15) (s : State), s.cau.generator = some g →
    ∀ g' : BitVec 15, g' = BitVec.ofNat 15 (2 * g.toNat + (g.getLsbD 14 ^^ g.getLsbD 13).toNat) →
    ∀ (base w : Nat), w = (if s.cau.crowded then min 128 (2 * base) else base) →
    ∀ staged, staged = (fun (force : ForceTimer) => { s with
        cau.generator := some g'
        cau.staging := some { burst := composed s source, source := source, window := w, backoff := g'.toNat % w, force := force }
        cau.access := if s.cau.access = .idle then .gap else s.cau.access
        cau.gapCount := if s.cau.access = .idle then 0 else s.cau.gapCount
        cau.slotCount := if s.cau.access = .idle then 0 else s.cau.slotCount }) →
    (∀ team, source = .allstop team → base = 1 → stage source s = staged (.running 20)) ∧
    (source = .readback → base = 4 → stage source s = staged .none) ∧
    (∀ flag, source = .presence flag → base = 8 → stage source s = staged .none) ∧
    (∀ slot index o, source = .fragment slot index → orderAt slot s = some o →
      base = min 128 (2 ^ (s.config.wBaseCode.toNat + 2) * 2 ^ (o.attempts - 1)) →
      stage source s = { staged .none with
        cau.credit := s.cau.credit - 256
        odu.ool := s.odu.ool.set slot (some { o with place := .staged }) })

/-- Every staged burst has a good CRC and reads back with the header and body of its kind (01 section 1.3; 01 section 1.4; 03
section 3.1; 12 section 12.1). -/
def Obligations.ComposedBurstsCarryTheirFields : Prop :=
  ∀ s : State, ∀ base : Burst, base = {
      kind := .call, crowded := s.cau.crowded, role := s.config.role, index := 0, last := true, team := s.tmu.homeTeam,
      sender := s.config.station, target := 65535, callNumber := 0, confirm := false, presence := .normal, body := [] } →
    (∀ team, crcGood (composed s (.allstop team)) = true ∧
      readBurst (composed s (.allstop team)) =
        { base with kind := .allstop, team := team, body := allstopPattern ++ List.replicate 14 0 }) ∧
    (∀ flag, crcGood (composed s (.presence flag)) = true ∧
      readBurst (composed s (.presence flag)) =
        { base with
          kind := .presence
          presence := flag
          body := octetsOf (s.tmu.control.holder.getD 0) ++ [s.stu.causes.toByte] ++ List.replicate 19 0 }) ∧
    (∀ e rest, s.odu.rbq = e :: rest → crcGood (composed s .readback) = true ∧
      readBurst (composed s .readback) =
        { base with
          kind := .readback
          target := e.sender
          callNumber := e.callNumber
          body := [e.callType, e.verdict.toByte] ++ octetsOf e.digest ++ List.replicate 18 0 }) ∧
    (∀ slot index o buffer, orderAt slot s = some o → o.buffers[index]? = some buffer → index ≤ 7 →
      crcGood (composed s (.fragment slot index)) = true ∧
      readBurst (composed s (.fragment slot index)) =
        { base with
          crowded := s.cau.crowded || decide (2 ≤ o.attempts)
          index := BitVec.ofNat 3 index
          last := decide (index + 1 = fragmentCount o.length)
          target := o.target
          callNumber := o.callNumber
          confirm := o.confirm
          body := readBuffer s.bpl.memory buffer })

/-- An ALLSTOP request is held, merged with one held or staged, or displaces another burst (03 section 3.4; 03 section 3.2). -/
def Obligations.AllstopRequestsMergeOrDisplace : Prop :=
  ∀ (team : Team) (s : State),
    (∀ held, s.cau.allstopRequest = some held →
      requestAllstop team s = { s with cau.allstopRequest := some (if held = team then team else 0) }) ∧
    (s.cau.allstopRequest = none →
      (s.cau.staging = none → requestAllstop team s = { s with cau.allstopRequest := some team }) ∧
      (∀ st held, s.cau.staging = some st → st.source = .allstop held →
        (held = team → requestAllstop team s = s) ∧
        (held ≠ team →
          requestAllstop team s = { s with cau.staging := some { st with
            burst := (st.burst.take 30).set 1 0 ++ octetsOf (crc ((st.burst.take 30).set 1 0))
            source := .allstop 0 } })) ∧
      (∀ st back, s.cau.staging = some st →
        (st.source = .readback ∨ (∃ flag, st.source = .presence flag)) ∧ back = s ∨
          (∃ slot index o, st.source = .fragment slot index ∧ orderAt slot s = some o ∧
            back = { s with
              cau.credit := min 1024 (s.cau.credit + 256)
              odu.ool := s.odu.ool.set slot (some { o with place := .none }) }) →
        requestAllstop team s =
          if s.cau.access = .backoff ∧ ((stage (.allstop team) back).cau.staging.map Staged.backoff) = some 0 then
            goOnAir (stage (.allstop team) back)
          else stage (.allstop team) back))

/-- A composed burst passes its CRC, and every field reads back as it was written (12 section 12.1; 01 section 1.5). -/
def Obligations.BurstsReadBackAsWritten : Prop :=
  ∀ b : Burst, b.body.length = 22 → crcGood (writeBurst b) = true ∧ readBurst (writeBurst b) = b

/-- An accepted call stands whole in its buffers with zeros behind it, and its number is the first that no order holds (06 section
6.2; 05 section 5.3; 01 section 1.4). -/
def Obligations.SubmittedCallsGetNumbersAndBuffers : Prop :=
  (∀ (m : List Host.Cell) (buffers : List BufferNumber) (callType : Byte) (data : List Byte),
     Memory.wf m = true → buffers.Nodup → data.length ≤ 174 → buffers.length = fragmentCount data.length →
     ∀ after, after = writeBuffers m buffers (bodies (fragmentCount data.length) (callOctets callType data.length data)) →
       readBuffers after buffers =
         [callType, octet data.length] ++ data ++ List.replicate (22 * buffers.length - 2 - data.length) 0 ∧
       (∀ other, other ∉ buffers → readBuffer after other = readBuffer m other) ∧ Memory.wf after = true) ∧
  (∀ s : State, s.odu.ool.length = 8 →
     ∃ k, k ≤ 8 ∧ nextNumber s = s.odu.callNumber + BitVec.ofNat 8 k ∧ (∀ o ∈ inUse s.odu.ool, o.callNumber ≠ nextNumber s) ∧
       ∀ j, j < k → ∃ o ∈ inUse s.odu.ool, o.callNumber = s.odu.callNumber + BitVec.ofNat 8 j)

/-- SUBMIT ORDER is refused with the code of the first test that fails, and then changes nothing (R87, R88). -/
def Obligations.SubmissionIsTestedInOrder : Prop :=
  ∀ (f : Frame) (s : State) (sub : Submission), sub = readSubmission f.params →
    ∀ refused : ReplyCode → Prop, (∀ answer, refused answer ↔ exec (.submitOrder f) s = .next (turnedDown .submitOrder answer s)) →
    (FrameOutsideRunning .submitOrder f s → refused .notRunning) ∧
    (FramePasses .submitOrder f s → s.cfl.part = .running →
      (s.tmu.attached = false ∨ s.tmu.leavePending = true → refused .notAttached) ∧
      (s.tmu.attached = true → s.tmu.leavePending = false →
        (CallType.ofByte sub.callType = none → refused .badType) ∧
        (∀ t, CallType.ofByte sub.callType = some t →
          ∀ permitted fits : Prop,
          (permitted ↔ ((t = .release → s.config.role = .portable) ∧
            (t = .handoverOffer → s.config.role = .portable ∧ sub.target ≠ 65535) ∧
            (t = .handoverTake ∨ t = .relinquish → s.config.role = .portable ∧ sub.target = 65535))) →
          (fits ↔ (sub.length ≤ 174 ∧ (t = .move → sub.length = 2) ∧ (t = .countdown → sub.length = 1) ∧
            (t = .stop ∨ t = .release ∨ t = .handoverOffer ∨ t = .handoverTake ∨ t = .relinquish → sub.length = 0) ∧
            (t = .cutList → sub.length % 3 = 0 ∧ 3 ≤ sub.length))) →
          (¬ permitted → refused .notPermitted) ∧
          (permitted → ¬ fits → refused .badLength) ∧
          (permitted → fits →
            (sub.target = 0 ∨ (sub.target = s.config.station ∧ sub.target ≠ 65535) → refused .badTarget) ∧
            (sub.target = 65535 ∨ (sub.target ≠ 0 ∧ sub.target ≠ s.config.station) →
              ((∀ slot ∈ s.odu.ool, slot ≠ none) → refused .full) ∧
              (none ∈ s.odu.ool → s.bpl.free.length < fragmentCount sub.length → refused .noBuffers))))))

/-- An accepted SUBMIT ORDER takes a slot, a number, a sequence value and its buffers, and sends if no order does (06 section 6.2;
09 section 9.1; log entry 5; log entry 19). That the reply is two octets, the slot first, is the model's reading (log entry 19),
and that the arbiter looks once, at the event's end, is log entry 5. -/
def Obligations.AcceptedSubmissionsBecomeOrders : Prop :=
  ∀ (f : Frame) (s : State) (sub : Submission) (t : CallType) (slot : Nat),
    FramePasses .submitOrder f s → sub = readSubmission f.params → s.cfl.part = .running →
    s.tmu.attached = true → s.tmu.leavePending = false → CallType.ofByte sub.callType = some t →
    (t = .release → s.config.role = .portable) → (t = .handoverOffer → s.config.role = .portable ∧ sub.target ≠ 65535) →
    (t = .handoverTake ∨ t = .relinquish → s.config.role = .portable ∧ sub.target = 65535) →
    sub.length ≤ 174 → (t = .move → sub.length = 2) → (t = .countdown → sub.length = 1) →
    (t = .stop ∨ t = .release ∨ t = .handoverOffer ∨ t = .handoverTake ∨ t = .relinquish → sub.length = 0) →
    (t = .cutList → sub.length % 3 = 0 ∧ 3 ≤ sub.length) →
    sub.target = 65535 ∨ (sub.target ≠ 0 ∧ sub.target ≠ s.config.station) →
    s.odu.ool[slot]? = some none → (∀ n < slot, s.odu.ool[n]? ≠ some none) →
    fragmentCount sub.length ≤ s.bpl.free.length →
    ∀ order, order = ({
        sequence := s.odu.nextSequence, callNumber := nextNumber s, callType := sub.callType, target := sub.target,
        confirm := sub.confirm, length := sub.length, digest := digest (sub.callType :: octet sub.length :: sub.data.take sub.length),
        buffers := s.bpl.free.take (fragmentCount sub.length), next := 0, place := .none, attempts := 0, state := .queued, members := [],
        cancelPending := false, outcome := none, finishStamp := none, wait := none } : Order) →
      exec (.submitOrder f) s = .next (replied .submitOrder [octet slot, nextNumber s] (arbitrate (promote
        { s with
          bpl.free := s.bpl.free.drop (fragmentCount sub.length)
          bpl.memory := writeBuffers s.bpl.memory order.buffers
            (bodies (fragmentCount sub.length) (sub.callType :: octet sub.length :: sub.data.take sub.length))
          odu.ool := s.odu.ool.set slot (some order)
          odu.callNumber := nextNumber s + 1
          odu.nextSequence := s.odu.nextSequence + 1 })))

/-- With no order SENDING the QUEUED order of the lowest submission sequence becomes SENDING (06 section 6.3; log entry 16). The
six taken are the first six of the table. That the table stands in ascending station order, so that they are the six lowest
stations of R91, is the model's form (log entry 16), kept by O55. -/
def Obligations.OldestQueuedOrderSends : Prop :=
  ∀ s : State,
    ((∃ o ∈ inUse s.odu.ool, o.state = .sending) ∨ (∀ o ∈ inUse s.odu.ool, o.state ≠ .queued) → promote s = s) ∧
    ((∀ o ∈ inUse s.odu.ool, o.state ≠ .sending) → ∀ slot o, orderAt slot s = some o → o.state = .queued →
      (∀ other p, orderAt other s = some p → p.state = .queued → other ≠ slot → o.sequence < p.sequence) →
      ∀ set : List Station, set = (if o.confirm = false then []
          else if o.target = 65535 then
            ((s.tmu.peers.filter (fun p => decide (p.role = .locomotive ∧ p.link ≠ .lost))).take 6).map Peer.station
          else [o.target]) →
        promote s = { s with odu.ool := s.odu.ool.set slot (some { o with
          state := .sending
          attempts := o.attempts + 1
          next := 0
          place := .none
          members := if o.attempts = 0 then set.map (fun m => { station := m, answer := none }) else o.members }) })

/-- A read-back wait that runs out retries the order at a lower rate, or finishes it at the attempt limit (R94). The arbiter then
looks, as R45 has it at such an event; that it does so at the event's end is log entry 5. -/
def Obligations.ReadbackWaitExpiryRetriesOrFinishes : Prop :=
  ∀ (slot : Fin 8) (o : Order) (s : State), s.cfl.part = .running → orderAt slot.val s = some o → o.state = .awaitReadback →
    o.wait = some 0 →
    (o.attempts < s.config.attemptLimit →
      exec (.readbackWaitExpiry slot) s = .next (settle (promote
        { s with
          cau.rate := max s.config.rMin (s.cau.rate - s.cau.rate / 2 ^ s.config.decreaseFactor)
          odu.ool := s.odu.ool.set slot.val (some { o with state := .queued, wait := none }) }))) ∧
    (s.config.attemptLimit ≤ o.attempts →
      ((∀ m ∈ o.members, m.answer = none) → exec (.readbackWaitExpiry slot) s = .next (settle (finishOrder slot.val .failed s))) ∧
      ((∃ m ∈ o.members, m.answer ≠ none) → exec (.readbackWaitExpiry slot) s = .next (settle (finishOrder slot.val .partial_ s))))

/-- A finishing order gives back its fragment and buffers, and its result joins the RSQ or waits in its slot (06 section 6.7; 06
section 6.8; log entry 16). That the fragment place of a FINISHED order is none, also while its fragment is on air, is the model's
choice (log entry 16). -/
def Obligations.FinishingReturnsBuffersAndOffersTheResult : Prop :=
  ∀ (slot : Nat) (o : Order) (outcome : OrderOutcome) (s : State), orderAt slot s = some o →
    ∀ silent, (o.place ≠ .staged ∧ silent = s ∨
        o.place = .staged ∧ (∃ st index, s.cau.staging = some st ∧ st.source = .fragment slot index) ∧
          silent = { s with
            cau.staging := none
            cau.credit := min 1024 (s.cau.credit + 256)
            cau.access := if s.cau.access = .gap ∨ s.cau.access = .backoff then .idle else s.cau.access
            cau.gapCount := if s.cau.access = .gap ∨ s.cau.access = .backoff then 0 else s.cau.gapCount
            cau.slotCount := if s.cau.access = .gap ∨ s.cau.access = .backoff then 0 else s.cau.slotCount }) →
    (s.odu.rsq.length < 8 →
      finishOrder slot outcome s = promote { silent with
        bpl.free := s.bpl.free ++ o.buffers
        odu.ool := s.odu.ool.set slot none
        odu.rsq := s.odu.rsq ++
          [{ slot := slot, callNumber := o.callNumber, callType := o.callType, target := o.target, outcome := outcome,
             attempts := o.attempts, answered := o.members.filterMap (fun m => m.answer.map (fun v => (m.station, v))),
             finishStamp := s.time }] }) ∧
    (8 ≤ s.odu.rsq.length →
      finishOrder slot outcome s = promote { silent with
        bpl.free := s.bpl.free ++ o.buffers
        odu.ool := s.odu.ool.set slot (some { o with
          state := .finished, outcome := some outcome, finishStamp := some s.time, cancelPending := false, wait := none, buffers := [],
          place := .none })
        odu.finishedSlots := s.odu.finishedSlots ++ [slot] })

/-- CANCEL ORDER is refused for a slot that cannot be cancelled, and else finishes the order or waits for its fragment on air
(R98). The arbiter then looks, as R45 has it at such an event; that it does so at the event's end is log entry 5. -/
def Obligations.CancelOrderActsByState : Prop :=
  ∀ (f : Frame) (slot : Nat) (s : State),
    (FrameOutsideRunning .cancelOrder f s → exec (.cancelOrder f) s = .next (turnedDown .cancelOrder .notRunning s)) ∧
    (FramePasses .cancelOrder f s → slot = (octetAt f.params 0).toNat →
    (7 < slot → exec (.cancelOrder f) s = .next (turnedDown .cancelOrder .badRange s)) ∧
    (slot ≤ 7 →
      (orderAt slot s = none → exec (.cancelOrder f) s = .next (turnedDown .cancelOrder .notHeld s)) ∧
      (∀ o, orderAt slot s = some o →
        (o.state = .finished ∨ o.state = .sending ∧ o.cancelPending = true →
          exec (.cancelOrder f) s = .next (turnedDown .cancelOrder .busy s)) ∧
        (o.state = .sending → o.cancelPending = false → o.place = .onAir →
          exec (.cancelOrder f) s = .next (replied .cancelOrder [] (arbitrate
            { s with odu.ool := s.odu.ool.set slot (some { o with cancelPending := true }) }))) ∧
        (o.state = .queued ∨ o.state = .awaitReadback ∨ o.state = .sending ∧ o.cancelPending = false ∧ o.place ≠ .onAir →
          exec (.cancelOrder f) s = .next (replied .cancelOrder [] (arbitrate (finishOrder slot .cancelled s)))))))

/-- TAKE CALL, RELEASE CALL and TAKE RESULT answer the head, the held call and the result, and a held result moves in (R103). -/
def Obligations.CallsAndResultsAreTaken : Prop :=
  (∀ (f : Frame) (s : State),
   ∀ code : Verdict → Byte, code = (fun v => if v = .accepted then 0 else if v = .refusedNotHolder then 1 else if v = .refusedStopped then 2
       else if v = .refusedNoOffer then 3 else if v = .refusedTooSoon then 4 else 5) →
     (FrameOutsideRunning .takeCall f s → exec (.takeCall f) s = .next (turnedDown .takeCall .notRunning s)) ∧
     (FrameOutsideRunning .releaseCall f s → exec (.releaseCall f) s = .next (turnedDown .releaseCall .notRunning s)) ∧
     (FramePasses .takeCall f s →
       (s.asu.rcq = [] → exec (.takeCall f) s = .next (turnedDown .takeCall .empty s)) ∧
       (∀ r rest (handle : BufferNumber) more, s.asu.rcq = r :: rest → r.buffers = handle :: more →
         exec (.takeCall f) s = .next (replied .takeCall
           (octetsOf r.sender ++
            [octet ((if r.senderRole = .locomotive then 1 else 0) + (if r.target = 65535 then 2 else 0) + 4 * r.confirm.toNat +
               8 * r.fromHolder.toNat + 16 * r.crowdedSeen.toNat), r.callNumber, r.callType, octet r.length, octet r.buffers.length,
             octet handle.val] ++
            (r.buffers.map (fun b : BufferNumber => octet b.val) ++ List.replicate 8 0xFF).take 8 ++ octetsOf r.firstStamp ++ octetsOf r.lastStamp ++
            [code r.verdict] ++ ((readBuffers s.bpl.memory r.buffers).drop 2).take r.length)
           { s with asu.rcq := rest, bpl.held := s.bpl.held ++ [{ handle := handle, buffers := r.buffers }] }))) ∧
     (FramePasses .releaseCall f s → ∀ handle, handle = (octetAt f.params 0).toNat →
       ((∀ h ∈ s.bpl.held, h.handle.val ≠ handle) → exec (.releaseCall f) s = .next (turnedDown .releaseCall .notHeld s)) ∧
       (∀ before h after, s.bpl.held = before ++ h :: after → h.handle.val = handle → (∀ x ∈ before, x.handle.val ≠ handle) →
         exec (.releaseCall f) s = .next (replied .releaseCall []
           { s with bpl.held := before ++ after, bpl.free := s.bpl.free ++ h.buffers })))) ∧
  (∀ (f : Frame) (s : State),
   ∀ code : Verdict → Byte, code = (fun v => if v = .accepted then 0 else if v = .refusedNotHolder then 1 else if v = .refusedStopped then 2
       else if v = .refusedNoOffer then 3 else if v = .refusedTooSoon then 4 else 5) →
     (FrameOutsideRunning .takeResult f s → exec (.takeResult f) s = .next (turnedDown .takeResult .notRunning s)) ∧
     (FramePasses .takeResult f s →
     (s.odu.rsq = [] → exec (.takeResult f) s = .next (turnedDown .takeResult .empty s)) ∧
     (∀ r rest outcomeCode octets, s.odu.rsq = r :: rest →
       outcomeCode = (if r.outcome = .done then 0 else if r.outcome = .partial_ then 1 else if r.outcome = .refused then 2
         else if r.outcome = .failed then 3 else if r.outcome = .noPeers then 4 else 5) →
       octets = [octet r.slot, r.callNumber, r.callType] ++ octetsOf r.target ++
         [outcomeCode, octet r.attempts, octet r.answered.length] ++ octetsOf r.finishStamp ++
         r.answered.flatMap (fun m => octetsOf m.1 ++ [code m.2]) →
       (s.odu.finishedSlots = [] → exec (.takeResult f) s = .next (replied .takeResult octets { s with odu.rsq := rest })) ∧
       (∀ slot later o outcome stamp, s.odu.finishedSlots = slot :: later → orderAt slot s = some o → o.outcome = some outcome →
         o.finishStamp = some stamp →
         exec (.takeResult f) s = .next (replied .takeResult octets
           { s with
             odu.rsq := rest ++
               [{ slot := slot, callNumber := o.callNumber, callType := o.callType, target := o.target, outcome := outcome,
                  attempts := o.attempts, answered := o.members.filterMap (fun m => m.answer.map (fun v => (m.station, v))),
                  finishStamp := stamp }]
             odu.finishedSlots := later
             odu.ool := s.odu.ool.set slot none })))))

/-- READ STATUS, READ COUNTS, READ AND CLEAR COUNTS, READ PEERS and TAKE EXCEPTION return what stands and clear what they take (01
section 1.8; 09 section 9.2; 09 section 9.4; 12 section 12.2). -/
def Obligations.ReadingCommandsReturnWhatStands : Prop :=
  ∀ (f : Frame) (s : State),
  ∀ marks : Causes → Byte, marks = (fun c => octet (c.radioStop.toNat + 2 * c.allstop.toNat + 4 * c.supervision.toNat +
      8 * c.noHolder.toNat + 16 * c.cab.toNat + 32 * c.terminal.toNat)) →
    (∀ fault range control status : List Byte,
      ((s.cfl.fault = .none → fault = [0, 0]) ∧ (s.cfl.fault = .noMemory → fault = [1, 0]) ∧
        (s.cfl.fault = .badDigest → fault = [2, 0]) ∧ (∀ offset, s.cfl.fault = .badField offset → fault = [3, offset])) →
      ((s.tpt.range = none → range = [0, 0]) ∧ (∀ low high, s.tpt.range = some (low, high) → range = [low, high])) →
      ((s.tmu.control = .unheld → control = List.replicate 7 0) ∧
        (∀ holder, s.tmu.control = .held holder → control = [1] ++ octetsOf holder ++ List.replicate 4 0) ∧
        (∀ holder offered stamp, s.tmu.control = .offerPending holder offered stamp →
          control = [2] ++ octetsOf holder ++ octetsOf offered ++ octetsOf stamp)) →
      status =
        [if s.cfl.part = .configuring then 0 else if s.cfl.part = .running then 1 else 2] ++ fault ++
        [if s.config.role = .locomotive then 1 else 0] ++ octetsOf s.config.station ++
        [s.tmu.homeTeam, octet (s.tmu.attached.toNat + 2 * s.tmu.leavePending.toNat)] ++ range ++ [marks s.stu.causes] ++ control ++
        [octet s.asu.rcq.length, octet s.asu.exq.length, octet s.odu.rsq.length, octet s.odu.rbq.length, octet (inUse s.odu.ool).length,
         octet s.bpl.free.length] ++
        s.odu.ool.flatMap (fun slot => slot.elim [0, 0, 0] (fun o =>
          [octet ((if o.state = .queued then 1 else if o.state = .sending then 2 else if o.state = .awaitReadback then 3 else 4) +
            8 * o.cancelPending.toNat), o.callNumber, octet o.attempts])) ++
        octetsOf (BitVec.ofNat 16 s.cau.rate) ++ octetsOf (BitVec.ofNat 16 s.cau.credit) ++ octetsOf (BitVec.ofNat 16 s.cau.average) ++
        [octet s.cau.crowded.toNat,
         octet (s.tpt.flags.causesChanged.toNat + 2 * s.tpt.flags.allstopHeard.toNat + 4 * s.tpt.flags.exqOverflow.toNat +
           8 * s.tpt.flags.ownNumberHeard.toNat + 16 * s.tpt.flags.peerTableFull.toNat)] →
      (FramePasses .readStatus f s → exec (.readStatus f) s = .next (replied .readStatus status { s with tpt.flags := {} })) ∧
      (s.odu.ool.length = 8 → status.length = 56) ∧
      (s.cfl.part ≠ .running → ConfigKept s → AtRest s →
        status.drop 3 = List.replicate 20 0 ++ [128] ++ List.replicate 32 0)) ∧
    (∀ counts, counts = octetsOf s.rxc.counts.burstsGood ++ octetsOf s.rxc.counts.checkFailures ++ octetsOf s.rxc.counts.foreignBursts ++
        octetsOf s.rxc.counts.orphanFragments ++ octetsOf s.rxc.counts.duplicateCalls ++ octetsOf s.rxc.counts.strayReadbacks →
      (FramePasses .readCounts f s → exec (.readCounts f) s = .next (replied .readCounts counts s)) ∧
      (FramePasses .readAndClearCounts f s →
        exec (.readAndClearCounts f) s = .next (replied .readAndClearCounts counts
          { s with rxc.counts := { burstsGood := 0, checkFailures := 0, foreignBursts := 0, orphanFragments := 0, duplicateCalls := 0,
                                   strayReadbacks := 0 } }))) ∧
    (FramePasses .readPeers f s →
      exec (.readPeers f) s = .next (replied .readPeers (octet s.tmu.peers.length :: s.tmu.peers.flatMap (fun p =>
        octetsOf p.station ++
        [octet ((if p.role = .locomotive then 1 else 0) + (if p.link = .fading then 2 else if p.link = .lost then 4 else 0) +
           8 * p.reportedHolder.isSome.toNat + 16 * p.reportedCauses.isSome.toNat), octet p.silence] ++
        octetsOf p.lastHeard ++ octetsOf (p.reportedHolder.getD 0) ++ [(p.reportedCauses.map marks).getD 0])) s)) ∧
    (FramePasses .takeException f s →
      (s.asu.exq = [] → exec (.takeException f) s = .next (turnedDown .takeException .empty s)) ∧
      (∀ e rest code, s.asu.exq = e :: rest →
        code = (if e.code = .noContext then 1 else if e.code = .noBuffer then 2 else if e.code = .outOfOrder then 3
          else if e.code = .lengthMismatch then 4 else if e.code = .badType then 5 else if e.code = .agedOut then 6
          else if e.code = .superseded then 7 else 8) →
        exec (.takeException f) s = .next (replied .takeException
          ([code, highOctet e.sender, lowOctet e.sender, e.callNumber, octet e.index, highOctet e.stamp, lowOctet e.stamp])
          { s with asu.exq := rest })))

/-- SET MASK takes the five marks and the output follows; NARROW RANGE only narrows the range in force (09 section 9.3; 09 section
9.5). -/
def Obligations.MaskAndRangeAreSet : Prop :=
  (∀ (f : Frame) (s : State) (m : Byte),
     (FrameOutsideRunning .setMask f s → exec (.setMask f) s = .next (turnedDown .setMask .notRunning s)) ∧
     (FramePasses .setMask f s → m = octetAt f.params 0 →
     (32 ≤ m.toNat → exec (.setMask f) s = .next (turnedDown .setMask .badRange s)) ∧
     (m.toNat < 32 →
       exec (.setMask f) s = .next (withReply 0x11 .ok []
         { s with
           tpt.mask := { rcq := m.getLsbD 0, exq := m.getLsbD 1, rsq := m.getLsbD 2, causesChanged := m.getLsbD 3,
                         allstopHeard := m.getLsbD 4 }
           pins := { stopd := stopdAsserted s, key := s.cau.onAir.isSome,
                     interrupt := (m.getLsbD 0 && !s.asu.rcq.isEmpty) || (m.getLsbD 1 && !s.asu.exq.isEmpty) ||
                       (m.getLsbD 2 && !s.odu.rsq.isEmpty) || (m.getLsbD 3 && s.tpt.flags.causesChanged) ||
                       (m.getLsbD 4 && s.tpt.flags.allstopHeard) } })))) ∧
  (∀ (f : Frame) (s : State) (low high curLow curHigh : Team),
     (FrameOutsideRunning .narrowRange f s → exec (.narrowRange f) s = .next (turnedDown .narrowRange .notRunning s)) ∧
     (FramePasses .narrowRange f s → low = octetAt f.params 0 → high = octetAt f.params 1 → s.tpt.range = some (curLow, curHigh) →
       (high.toNat < low.toNat ∨ low = 0 ∨ 250 < high.toNat → exec (.narrowRange f) s = .next (turnedDown .narrowRange .badRange s)) ∧
       (low.toNat ≤ high.toNat → low ≠ 0 → high.toNat ≤ 250 →
         (s.config.tight = true ∨ low.toNat < curLow.toNat ∨ curHigh.toNat < high.toNat →
           exec (.narrowRange f) s = .next (turnedDown .narrowRange .locked s)) ∧
         (s.config.tight = false → curLow.toNat ≤ low.toNat → high.toNat ≤ curHigh.toNat →
           exec (.narrowRange f) s = .next (replied .narrowRange [] { s with tpt.range := some (low, high) })))) ∧
     (∀ c t, (c = .restart f ∧ s.cfl.part = .running) ∨ c = .joinTeam f ∨ c = .leaveTeam f → exec c s = .next t → t.tpt.range = s.tpt.range))

/-- Select frames a transaction, and a command frame is refused by the first of the four tests it fails (09 section 9.1; 09
section 9.7; 12 section 12.2; log entry 18). That RESTART is refused during the load that a RESTART in HALTED began is the model's
choice (log entry 18). -/
def Obligations.FramesAreTestedAndFramed : Prop :=
  (∀ (f : Frame) (s : State), s.tpt.port = .frame →
     (∀ c : PortCommand,
       (f.check ≠ digest (c.code :: octet f.params.length :: f.params) → exec (commandOf c f) s = .next (turnedDown c .badFrame s)) ∧
       (f.check = digest (c.code :: octet f.params.length :: f.params) →
         (¬ (s.cfl.part = .running ∨ s.cfl.part = .halted ∧ (c = .readStatus ∨ c = .restart) ∨
             s.cfl.part = .configuring ∧ c = .readStatus) →
           exec (commandOf c f) s = .next (turnedDown c .notRunning s)) ∧
         ((s.cfl.part = .running ∨ s.cfl.part = .halted ∧ (c = .readStatus ∨ c = .restart) ∨
             s.cfl.part = .configuring ∧ c = .readStatus) →
           f.params.length ≠ (if c = .submitOrder then 5 + (octetAt f.params 4).toNat else if c = .narrowRange then 2
             else if c = .joinTeam ∨ c = .sendAllstop ∨ c = .setMask ∨ c = .cancelOrder ∨ c = .releaseCall then 1 else 0) →
           exec (commandOf c f) s = .next (turnedDown c .badFrame s)))) ∧
     (∀ code : Byte, code = 0 ∨ 0x12 < code.toNat →
       (f.check ≠ digest (code :: octet f.params.length :: f.params) →
         exec (.badCommand code f) s = .next (withReply code .badFrame [] s)) ∧
       (f.check = digest (code :: octet f.params.length :: f.params) →
         exec (.badCommand code f) s = .next (withReply code .badCommand [] s)))) ∧
  (∀ s : State,
     (∀ i, dataOut .idle i = some 0xFF ∧ dataOut .frame i = some 0xFF) ∧
     (∀ cause, ¬ (s.cfl.part = .configuring ∧ s.cfl.resetHeld = true) → ∃ t, exec (.reset cause) s = .next t ∧ t.tpt.port = .idle) ∧
     (∀ code answer data, ∃ octets, (withReply code answer data s).tpt.port = .reply octets ∧ octets.head? = some 0xA5 ∧
       ∀ i, dataOut (.reply octets) i = octets[i]?) ∧
     (s.tpt.port = .idle → exec .selectActive s = .next { s with tpt.port := .frame }) ∧
     (s.tpt.port ≠ .idle → exec .selectInactive s = .next { s with tpt.port := .idle }) ∧
     (∀ code answer data, withReply code answer data s = { s with
       tpt.port := .reply
         ([0xA5, code, answer.toByte, octet data.length] ++ data ++ octetsOf (digest ([code, answer.toByte, octet data.length] ++ data))) }))

/-- An aging expiry ages every waiting call by one and abandons those that reach the limit, in context order (04 section 4.8; 04
section 4.9). -/
def Obligations.AgingAbandonsTheSilentCalls : Prop :=
  ∀ s : State, s.cfl.part = .running → 100 ≤ s.asu.agingMs → s.asu.exq.length ≤ 16 →
    ∀ limit, limit = (if s.config.agingCode = 0 then 3 else if s.config.agingCode = 1 then 5 else if s.config.agingCode = 2 then 10 else 20) →
    ∀ aged, aged = (inUse s.asu.contexts).filter (fun c => decide (limit ≤ c.age + 1)) →
      exec .agingTimerExpiry s = .next (drivePins
        { s with
          asu.agingMs := s.asu.agingMs - 100
          asu.contexts := s.asu.contexts.map (fun x =>
            x.bind (fun c => if limit ≤ c.age + 1 then none else some { c with age := c.age + 1 }))
          asu.exq := (s.asu.exq ++ aged.map (fun c =>
            ({ code := .agedOut, sender := c.sender, callNumber := c.callNumber, index := c.next, stamp := s.time } : ExceptionEntry))).take 16
          bpl.free := s.bpl.free ++ aged.flatMap Context.buffers
          tpt.flags.exqOverflow := s.tpt.flags.exqOverflow || decide (16 < s.asu.exq.length + aged.length) })

/-- A silence expiry fades and loses links and supervises the holder; a presence expiry requests a PRESENCE at the interval (07
section 7.3; 07 section 7.4). The arbiter then looks, as R45 has it at such an event; that it does so at the event's end is log
entry 5. -/
def Obligations.SilenceLosesPeersAndPresenceIsRequested : Prop :=
  (∀ s : State, s.cfl.part = .running → 100 ≤ s.tmu.silenceMs →
     ∀ limit, limit = ([6, 10, 15, 20, 30, 40, 60, 80] : List Nat).getD s.config.supervisionCode.toNat 0 →
     ∀ lost, lost = (isLocomotive s && s.tmu.peers.any (fun p =>
         decide (s.tmu.control.holder = some p.station ∧ p.link ≠ .lost ∧ limit ≤ min 255 (p.silence + 1)))) →
       exec .silenceTimerExpiry s = .next (drivePins
         { s with
           tmu.silenceMs := s.tmu.silenceMs - 100
           tmu.peers := s.tmu.peers.map (fun p =>
             { p with
               silence := min 255 (p.silence + 1)
               link := if p.link = .lost ∨ limit ≤ min 255 (p.silence + 1) then .lost
                 else if p.link = .active ∧ limit / 2 ≤ min 255 (p.silence + 1) then .fading else p.link })
           stu.causes.supervision := s.stu.causes.supervision || lost
           tpt.flags.causesChanged := s.tpt.flags.causesChanged || (lost && !s.stu.causes.supervision) })) ∧
  (∀ s : State, s.cfl.part = .running → 100 ≤ s.tmu.presenceMs →
     ∀ interval, interval = ([2, 3, 5, 6, 10, 13, 20, 26] : List Nat).getD s.config.supervisionCode.toNat 0 →
       exec .presenceTimerExpiry s = .next (settle
         { s with
           tmu.presenceMs := s.tmu.presenceMs - 100
           tmu.presenceCount := if s.tmu.attached then min interval (s.tmu.presenceCount + 1) else 0
           tmu.presenceRequest :=
             if s.tmu.attached = true ∧ interval ≤ s.tmu.presenceCount + 1 ∧ s.tmu.leavePending = false ∧ s.tmu.presenceRequest = none
             then some .normal else s.tmu.presenceRequest }))

/-- A pending offer lapses after 4000 ms, the release hold ends after 5000 ms, and neither before (07 section 7.8; 08 section 8.3;
log entry 4). -/
def Obligations.OffersLapseAndHoldsEnd : Prop :=
  ∀ s : State, s.cfl.part = .running →
    (∀ holder offered stamp, s.tmu.control = .offerPending holder offered stamp →
      exec .offerTimerExpiry s = .next (if 4000 ≤ (s.time - stamp).toNat then drivePins { s with tmu.control := .held holder } else s)) ∧
    (∀ stamp, s.stu.hold = true → s.stu.lastAllstop = some stamp →
      exec .holdExpiry s = .next (if 5000 ≤ (s.time - stamp).toNat then drivePins { s with stu.hold := false } else s))

/-- A key edge and SEND ALLSTOP start or restart an all-stop series; the key's release and a key outside RUNNING request nothing
(R134, R136). The arbiter then looks, as R45 has it at such an event; that it does so at the event's end is log entry 5. -/
def Obligations.KeyAndCommandStartASeries : Prop :=
  (∀ s : State,
     (s.stu.keyInput = false →
       (s.cfl.part ≠ .running → exec .emergencyKeyEdge s = .next (drivePins { s with stu.keyInput := true })) ∧
       (s.cfl.part = .running → ∀ team series, team = (if s.tmu.attached then s.tmu.homeTeam else 0) →
         series = (if s.stu.repeatCount = 0 ∨ s.stu.seriesTeam = some team then team else 0) →
         exec .emergencyKeyEdge s = .next (settle (requestAllstop series
           { s with stu.keyInput := true, stu.repeatCount := 3, stu.seriesTeam := some series })))) ∧
     (s.stu.keyInput = true → exec .emergencyKeyRelease s = .next (drivePins { s with stu.keyInput := false }))) ∧
  (∀ (f : Frame) (s : State),
     (FrameOutsideRunning .sendAllstop f s → exec (.sendAllstop f) s = .next (turnedDown .sendAllstop .notRunning s)) ∧
     (FramePasses .sendAllstop f s →
     (octetAt f.params 0 ≠ 1 → octetAt f.params 0 ≠ 2 → exec (.sendAllstop f) s = .next (turnedDown .sendAllstop .badRange s)) ∧
     (octetAt f.params 0 = 1 ∨ octetAt f.params 0 = 2 →
       ∀ team series, team = (if octetAt f.params 0 = 1 ∧ s.tmu.attached = true then s.tmu.homeTeam else 0) →
         series = (if s.stu.repeatCount = 0 ∨ s.stu.seriesTeam = some team then team else 0) →
         exec (.sendAllstop f) s = .next (replied .sendAllstop [] (arbitrate (requestAllstop series
           { s with stu.repeatCount := 3, stu.seriesTeam := some series }))))))

/-- CAB follows the cab-stop input, TERMINAL the terminal processor's requests, on a locomotive only (R139). -/
def Obligations.LocalCausesFollowCabAndTerminal : Prop :=
  ∀ (active : Bool) (f : Frame) (s : State),
    (s.stu.cabInput ≠ active →
      (s.cfl.part = .running → isLocomotive s = true →
        exec (.cabStopTransition active) s = .next (drivePins
          { s with
            stu.cabInput := active
            stu.causes.cab := active
            tpt.flags.causesChanged := s.tpt.flags.causesChanged || (s.stu.causes.cab != active) })) ∧
      (s.cfl.part ≠ .running ∨ isLocomotive s = false →
        exec (.cabStopTransition active) s = .next (drivePins { s with stu.cabInput := active }))) ∧
    (FramePasses .stopRequest f s →
      exec (.stopRequest f) s = .next (replied .stopRequest [] (if isLocomotive s then
        { s with stu.causes.terminal := true, tpt.flags.causesChanged := s.tpt.flags.causesChanged || !s.stu.causes.terminal } else s))) ∧
    (FramePasses .clearTerminalStop f s →
      exec (.clearTerminalStop f) s = .next (replied .clearTerminalStop [] (if isLocomotive s then
        { s with stu.causes.terminal := false, tpt.flags.causesChanged := s.tpt.flags.causesChanged || s.stu.causes.terminal } else s))) ∧
    (FrameOutsideRunning .stopRequest f s → exec (.stopRequest f) s = .next (turnedDown .stopRequest .notRunning s)) ∧
    (FrameOutsideRunning .clearTerminalStop f s →
      exec (.clearTerminalStop f) s = .next (turnedDown .clearTerminalStop .notRunning s))

/-- JOIN TEAM clears the old team's picture and attaches at once; LEAVE TEAM waits for its PRESENCE (07 section 7.1; log entry 5).
The next state rests on log entry 5: R108 to R110 give the commands' effects, and that the arbiter looks once, at the event's end,
and not when the staged burst is withdrawn, is the model's reading of R45 (DEDUCED). -/
def Obligations.TeamsAreJoinedAndLeft : Prop :=
  ∀ (f : Frame) (s : State),
    ∀ dropped, dropped = (fun (meant : Source → Prop) (keep : State) (emptied : State) =>
        ((∀ st, s.cau.staging = some st → ¬ meant st.source) ∧ emptied = keep) ∨
        ((∃ st, s.cau.staging = some st ∧ meant st.source) ∧ emptied = { keep with
          cau.staging := none
          cau.access := if s.cau.access = .gap ∨ s.cau.access = .backoff then .idle else s.cau.access
          cau.gapCount := if s.cau.access = .gap ∨ s.cau.access = .backoff then 0 else s.cau.gapCount
          cau.slotCount := if s.cau.access = .gap ∨ s.cau.access = .backoff then 0 else s.cau.slotCount })) →
    (FrameOutsideRunning .joinTeam f s → exec (.joinTeam f) s = .next (turnedDown .joinTeam .notRunning s)) ∧
    (FrameOutsideRunning .leaveTeam f s → exec (.leaveTeam f) s = .next (turnedDown .leaveTeam .notRunning s)) ∧
    (FramePasses .joinTeam f s → ∀ t : Team, t = octetAt f.params 0 →
      (t = 0 ∨ 250 < t.toNat → exec (.joinTeam f) s = .next (turnedDown .joinTeam .badRange s)) ∧
      (t ≠ 0 → t.toNat ≤ 250 →
        ((∃ x ∈ s.odu.ool, x ≠ none) → exec (.joinTeam f) s = .next (turnedDown .joinTeam .busy s)) ∧
        ((∀ x ∈ s.odu.ool, x = none) → s.config.tight = true → t ≠ s.config.homeTeam →
          exec (.joinTeam f) s = .next (turnedDown .joinTeam .locked s)) ∧
        ((∀ x ∈ s.odu.ool, x = none) → s.config.tight = false ∨ t = s.config.homeTeam →
          ∀ emptied, dropped (fun source => source = .readback ∨ ∃ flag, source = .presence flag)
            { s with
              tmu := { s.tmu with
                leavePending := false, attached := true, homeTeam := t, peers := [], presenceRequest := some .joining
                control := if isLocomotive s then .unheld else s.tmu.control }
              stu.causes.noHolder := s.stu.causes.noHolder || isLocomotive s
              tpt.flags.causesChanged := s.tpt.flags.causesChanged || (isLocomotive s && !s.stu.causes.noHolder)
              asu.contexts := s.asu.contexts.map (fun _ => none)
              bpl.free := s.bpl.free ++ (inUse s.asu.contexts).flatMap Context.buffers
              odu.rbq := [] } emptied →
            exec (.joinTeam f) s = .next (replied .joinTeam [] (arbitrate emptied))))) ∧
    (FramePasses .leaveTeam f s →
      (s.tmu.attached = false → exec (.leaveTeam f) s = .next (turnedDown .leaveTeam .notAttached s)) ∧
      (s.tmu.attached = true →
        ((∃ x ∈ s.odu.ool, x ≠ none) ∨ s.tmu.leavePending = true →
          exec (.leaveTeam f) s = .next (turnedDown .leaveTeam .busy s)) ∧
        ((∀ x ∈ s.odu.ool, x = none) → s.tmu.leavePending = false →
          ∀ emptied, dropped (fun source => ∃ flag, source = .presence flag)
            { s with tmu.leavePending := true, tmu.presenceRequest := some .leaving } emptied →
            exec (.leaveTeam f) s = .next (replied .leaveTeam [] (arbitrate emptied)))))

/-- A RESTART in RUNNING keeps what it must, sets the rest again, and requests the joining PRESENCE (10 section 10.6; log entry 5;
log entry 7). That the submission sequence restarts at 0 is the model's choice (log entry 7): R106 names no value. -/
def Obligations.RestartKeepsAndSetsAgain : Prop :=
  ∀ (f : Frame) (s : State), FramePasses .restart f s → s.cfl.part = .running →
    exec (.restart f) s = .next (replied .restart [] (arbitrate
      { s with
        rxc.reception := none
        cau := { sense := .clear, occupancy := 0, average := 0, crowded := false, crowdedHeard := false, rate := s.config.rInit,
                 credit := 256, paceSamples := 0, staging := none, onAir := none, onAirSamples := 0, access := .idle, gapCount := 0,
                 slotCount := 0, gateOpen := false, allstopRequest := none, generator := s.cau.generator }
        asu := { contexts := List.replicate 24 none, rcq := [], exq := [], agingMs := 0 }
        bpl.free := List.finRange 128
        bpl.held := []
        odu := { ool := List.replicate 8 none, rsq := [], rbq := [], callNumber := s.odu.callNumber, nextSequence := 0,
                 finishedSlots := [] }
        tmu := { attached := true, leavePending := false, homeTeam := s.tmu.homeTeam, peers := [], control := .unheld,
                 presenceRequest := some .joining, presenceCount := 0, silenceMs := 0, presenceMs := 0 }
        stu.causes.noHolder := s.stu.causes.noHolder || isLocomotive s
        stu.repeatCount := 0
        stu.seriesTeam := none
        tpt.flags := {} }))

/-- Every command ends in a next state, and an event that cannot come in the present state changes nothing (00 Conventions; 10
section 10.5; log entry 3). -/
def Obligations.EveryCommandEndsAndOutOfPlaceEventsChangeNothing : Prop :=
  (∀ (c : Instr) (s : State), ∃ t, exec c s = .next t ∧ t.pending = s.pending ∧ ((∀ cause, c ≠ .reset cause) → t.time = s.time)) ∧
  (∀ (octet : Byte) (octets : List Byte) (level : Level) (slot : Fin 8) (c : PortCommand) (code : Byte) (f : Frame) (s : State),
     (¬ (s.cfl.part = .configuring ∧ s.cfl.resetHeld = true) → exec .resetEnd s = .next s) ∧
     (¬ (s.cfl.part = .configuring ∧ s.cfl.resetHeld = false) →
       exec (.configOctetRead octet) s = .next s ∧ exec .noMemory s = .next s) ∧
     (s.cfl.part ≠ .running ∨ s.cau.access = .onAir → exec .burstSync s = .next s) ∧
     (s.cfl.part ≠ .running ∨ s.rxc.reception = none → exec (.burstReceived octets) s = .next s ∧ exec .shortBurst s = .next s) ∧
     (s.cfl.part ≠ .running ∨ sampleWaits s = true → exec (.levelSample level) s = .next s) ∧
     (s.cfl.part ≠ .running ∨ s.cau.paceSamples < 200 → exec .paceTimerExpiry s = .next s) ∧
     (s.cfl.part ≠ .running ∨ s.cau.access ≠ .gap ∨ s.cau.gapCount < 8 → exec .gapComplete s = .next s) ∧
     (s.cfl.part ≠ .running ∨ s.cau.access ≠ .backoff ∨ s.cau.slotCount < 4 → exec .slotComplete s = .next s) ∧
     (s.cfl.part ≠ .running ∨ s.cau.access ≠ .onAir ∨ s.cau.onAirSamples < 60 → exec .onAirCompletion s = .next s) ∧
     (s.cfl.part ≠ .running ∨ (∀ o, orderAt slot.val s = some o → o.state ≠ .awaitReadback ∨ o.wait ≠ some 0) →
       exec (.readbackWaitExpiry slot) s = .next s) ∧
     (s.cfl.part ≠ .running ∨ s.asu.agingMs < 100 → exec .agingTimerExpiry s = .next s) ∧
     (s.cfl.part ≠ .running ∨ s.tmu.silenceMs < 100 → exec .silenceTimerExpiry s = .next s) ∧
     (s.cfl.part ≠ .running ∨ s.tmu.presenceMs < 100 → exec .presenceTimerExpiry s = .next s) ∧
     (s.cfl.part ≠ .running ∨ (∀ st, s.cau.staging = some st → st.force ≠ .running 0) → exec .forceTimerExpiry s = .next s) ∧
     (s.cfl.part ≠ .running ∨ (∀ holder offered stamp, s.tmu.control = .offerPending holder offered stamp → (s.time - stamp).toNat < 4000) →
       exec .offerTimerExpiry s = .next s) ∧
     (s.cfl.part ≠ .running ∨ s.stu.hold = false ∨ (∀ stamp, s.stu.lastAllstop = some stamp → (s.time - stamp).toNat < 5000) →
       exec .holdExpiry s = .next s) ∧
     (s.stu.keyInput = true → exec .emergencyKeyEdge s = .next s) ∧ (s.stu.keyInput = false → exec .emergencyKeyRelease s = .next s) ∧
     exec (.cabStopTransition s.stu.cabInput) s = .next s ∧
     (s.tpt.port ≠ .idle → exec .selectActive s = .next s) ∧ (s.tpt.port = .idle → exec .selectInactive s = .next s) ∧
     (s.tpt.port ≠ .frame → exec (commandOf c f) s = .next s ∧ exec (.badCommand code f) s = .next s))

/-- STOPD, the interrupt output and the transmit key follow the state after every step (R130). -/
def Obligations.OutputsFollowEveryStep : Prop :=
  (∀ s : State, PinsFollow s →
    (s.pins.stopd = true ↔ s.cfl.part ≠ .running ∨ (s.config.role = .locomotive ∧ s.stu.causes ≠ {}))) ∧
  ∀ s t : State, PinsFollow s → step s = .next t → PinsFollow t

/-- R, C, A and O stay within their bounds, and a configuration is in force exactly in RUNNING (R24). -/
def Obligations.PaceStaysInItsBounds : Prop :=
  ∀ s t : State, PaceWithin s → ConfigKept s → step s = .next t → PaceWithin t ∧ ConfigKept t

/-- The registers agree with the access state, B with its window, fragments with the gate, and the generator is never 0 (03
section 3.1; 03 section 3.2; 03 section 3.3; 03 section 3.4). -/
def Obligations.TransmitterStaysSound : Prop :=
  ∀ s t : State, TransmitterSound s → step s = .next t → TransmitterSound t

/-- Contexts, receive queues and buffer contents stay sound through every step (04 section 4.1; 04 section 4.6; 04 section 4.7; 05
section 5.1). -/
def Obligations.AssemblyAndBufferContentsStaySound : Prop :=
  (∀ s t : State, AssemblySound s → step s = .next t → AssemblySound t) ∧
  (∀ s t : State, BufferMemorySound s → step s = .next t → BufferMemorySound t)

/-- Each of the 128 buffers is in exactly one place after every step (R77). -/
def Obligations.BuffersAreNeverLostOrLentTwice : Prop :=
  ∀ s t : State, BuffersBalanced s → FinishedHeld s → step s = .next t → BuffersBalanced t

/-- The orders stay sound, their fragment places agree with the registers, and in RUNNING staging is empty only if no class is
ready (06 section 6.1; 06 section 6.3; 06 section 6.7; 06 section 6.8; 03 section 3.4; log entry 16). That the fragment place of a
FINISHED order is none is the model's choice (log entry 16). -/
def Obligations.OrdersStaySoundAndTheArbiterNeverSleeps : Prop :=
  (∀ s t : State, OrdersSound s → step s = .next t → OrdersSound t) ∧
  (∀ s t : State, OrdersSound s → TransmitterSound s → PlacesAgree s → step s = .next t →
     PlacesAgree t ∧
     ∀ i o after, orderAt i s = some o → o.place = .onAir → orderAt i t = some after → after.state = .sending →
       t.cau.onAir = s.cau.onAir → after.place = .onAir) ∧
  (∀ s t : State, OrdersSound s → ArbiterKept s → step s = .next t → ArbiterKept t)

/-- The peer table keeps its keys; NO_HOLDER is set exactly when UNHELD; a holder has a portable entry; a portable has no cause
(07 section 7.2; 07 section 7.5; 08 section 8.1; log entry 16). That the entries stand in ascending station order is the model's
form (log entry 16): R111 gives them none. -/
def Obligations.HolderAndPeersStaySound : Prop :=
  ∀ s t : State, TeamSound s → step s = .next t → TeamSound t

/-- In CONFIGURING and HALTED every block keeps its first-column values, whatever arrives (02 section 2.7; 03 section 3.6; 04
section 4.9; 05 section 5.6; 06 section 6.9; 07 section 7.9; 08 section 8.6; 09 section 9.6; log entry 8; log entry 7).
Attachment, home team and control there, and the sequence's value 0, are the model's choice (log entries 7 and 8). -/
def Obligations.OutsideRunningThePartIsAtRest : Prop :=
  ∀ s t : State, AtRest s → step s = .next t → AtRest t

/-- RADIO_STOP, ALLSTOP_CAUSE and SUPERVISION leave the set only by the holder's RELEASE, together, or by a reset (R129). -/
def Obligations.RadioStopsEndOnlyByReleaseOrReset : Prop :=
  (∀ (c : Instr) (s t : State), s.cfl.part = .running → isLocomotive s = true → (∀ cause, c ≠ .reset cause) → exec c s = .next t →
    (∀ i, (radioCauses s.stu.causes).getD i false = true → (radioCauses t.stu.causes).getD i false = true) ∨
    (∃ octets, c = .burstReceived octets ∧ crcGood octets = true ∧ (readBurst octets).kind = .call ∧ s.stu.hold = false ∧
      s.tmu.control.holder = some (readBurst octets).sender ∧
      (((readBurst octets).index = 0 ∧ octetAt (readBurst octets).body 0 = 4) ∨
        ∃ i x, contextFor (readBurst octets).sender (readBurst octets).callNumber s = some (i, x) ∧ x.callType = 4) ∧
      t.stu.causes = releasedCauses s.stu.causes ∧
      t.tpt.flags.causesChanged = true)) ∧
  ∀ (sender : Station) (s : State), isLocomotive s = true → s.tmu.control.holder = some sender → s.stu.hold = false →
    decideVerdict sender 4 s = (.accepted, { s with
      stu.causes := { s.stu.causes with radioStop := false, allstop := false, supervision := false }
      tpt.flags.causesChanged := s.tpt.flags.causesChanged || s.stu.causes.radioStop || s.stu.causes.allstop || s.stu.causes.supervision })

/-- No step puts a MOVE or COUNTDOWN in a locomotive's RCQ unless its sender holds control and the cause set is empty (04 section
4.5; 07 section 7.6). -/
def Obligations.MovementReachesTheProcessorOnlyFromTheHolder : Prop :=
  ∀ (c : Instr) (s t : State), s.cfl.part = .running → isLocomotive s = true → exec c s = .next t →
    ∀ r ∈ t.asu.rcq, r ∈ s.asu.rcq ∨ (r.callType ≠ 1 ∧ r.callType ≠ 2) ∨
      (s.tmu.control.holder = some r.sender ∧ t.tmu.control.holder = some r.sender ∧ s.stu.causes = {} ∧ t.stu.causes = {})

/-- State.reset meets every invariant stated of the part (10 section 10.2; 05 section 5.6; log entry 6; log entry 8; log entry 9;
log entry 7). The reset values that the spec does not give are the model's choices (log entries 6 to 9). -/
def Obligations.ResetIsASoundPart : Prop :=
  Sound State.reset

end
end

