-- ==== Sys2Proof/Laws/State.lean ====
section
/-! SUPPORT. One lemma per field that a shared update leaves alone, and one for what it writes; what follows from the configuration part
of the state alone. -/

namespace Sys2Proof.Machine

/-! ### countGood -/

@[simp] theorem countGood_time (s : State) : (countGood s).time = s.time := rfl
@[simp] theorem countGood_cfl (s : State) : (countGood s).cfl = s.cfl := rfl
@[simp] theorem countGood_rxc_reception (s : State) : (countGood s).rxc.reception = s.rxc.reception := rfl
@[simp] theorem countGood_cau (s : State) : (countGood s).cau = s.cau := rfl
@[simp] theorem countGood_asu (s : State) : (countGood s).asu = s.asu := rfl
@[simp] theorem countGood_bpl (s : State) : (countGood s).bpl = s.bpl := rfl
@[simp] theorem countGood_odu (s : State) : (countGood s).odu = s.odu := rfl
@[simp] theorem countGood_tmu (s : State) : (countGood s).tmu = s.tmu := rfl
@[simp] theorem countGood_stu (s : State) : (countGood s).stu = s.stu := rfl
@[simp] theorem countGood_tpt (s : State) : (countGood s).tpt = s.tpt := rfl
@[simp] theorem countGood_pins (s : State) : (countGood s).pins = s.pins := rfl
@[simp] theorem countGood_pending (s : State) : (countGood s).pending = s.pending := rfl

/-! ### countCheckFailure -/

@[simp] theorem countCheckFailure_time (s : State) : (countCheckFailure s).time = s.time := rfl
@[simp] theorem countCheckFailure_cfl (s : State) : (countCheckFailure s).cfl = s.cfl := rfl
@[simp] theorem countCheckFailure_rxc_reception (s : State) : (countCheckFailure s).rxc.reception = s.rxc.reception := rfl
@[simp] theorem countCheckFailure_cau (s : State) : (countCheckFailure s).cau = s.cau := rfl
@[simp] theorem countCheckFailure_asu (s : State) : (countCheckFailure s).asu = s.asu := rfl
@[simp] theorem countCheckFailure_bpl (s : State) : (countCheckFailure s).bpl = s.bpl := rfl
@[simp] theorem countCheckFailure_odu (s : State) : (countCheckFailure s).odu = s.odu := rfl
@[simp] theorem countCheckFailure_tmu (s : State) : (countCheckFailure s).tmu = s.tmu := rfl
@[simp] theorem countCheckFailure_stu (s : State) : (countCheckFailure s).stu = s.stu := rfl
@[simp] theorem countCheckFailure_tpt (s : State) : (countCheckFailure s).tpt = s.tpt := rfl
@[simp] theorem countCheckFailure_pins (s : State) : (countCheckFailure s).pins = s.pins := rfl
@[simp] theorem countCheckFailure_pending (s : State) : (countCheckFailure s).pending = s.pending := rfl

/-! ### countForeign -/

@[simp] theorem countForeign_time (s : State) : (countForeign s).time = s.time := rfl
@[simp] theorem countForeign_cfl (s : State) : (countForeign s).cfl = s.cfl := rfl
@[simp] theorem countForeign_rxc_reception (s : State) : (countForeign s).rxc.reception = s.rxc.reception := rfl
@[simp] theorem countForeign_cau (s : State) : (countForeign s).cau = s.cau := rfl
@[simp] theorem countForeign_asu (s : State) : (countForeign s).asu = s.asu := rfl
@[simp] theorem countForeign_bpl (s : State) : (countForeign s).bpl = s.bpl := rfl
@[simp] theorem countForeign_odu (s : State) : (countForeign s).odu = s.odu := rfl
@[simp] theorem countForeign_tmu (s : State) : (countForeign s).tmu = s.tmu := rfl
@[simp] theorem countForeign_stu (s : State) : (countForeign s).stu = s.stu := rfl
@[simp] theorem countForeign_tpt (s : State) : (countForeign s).tpt = s.tpt := rfl
@[simp] theorem countForeign_pins (s : State) : (countForeign s).pins = s.pins := rfl
@[simp] theorem countForeign_pending (s : State) : (countForeign s).pending = s.pending := rfl

/-! ### countOrphan -/

@[simp] theorem countOrphan_time (s : State) : (countOrphan s).time = s.time := rfl
@[simp] theorem countOrphan_cfl (s : State) : (countOrphan s).cfl = s.cfl := rfl
@[simp] theorem countOrphan_rxc_reception (s : State) : (countOrphan s).rxc.reception = s.rxc.reception := rfl
@[simp] theorem countOrphan_cau (s : State) : (countOrphan s).cau = s.cau := rfl
@[simp] theorem countOrphan_asu (s : State) : (countOrphan s).asu = s.asu := rfl
@[simp] theorem countOrphan_bpl (s : State) : (countOrphan s).bpl = s.bpl := rfl
@[simp] theorem countOrphan_odu (s : State) : (countOrphan s).odu = s.odu := rfl
@[simp] theorem countOrphan_tmu (s : State) : (countOrphan s).tmu = s.tmu := rfl
@[simp] theorem countOrphan_stu (s : State) : (countOrphan s).stu = s.stu := rfl
@[simp] theorem countOrphan_tpt (s : State) : (countOrphan s).tpt = s.tpt := rfl
@[simp] theorem countOrphan_pins (s : State) : (countOrphan s).pins = s.pins := rfl
@[simp] theorem countOrphan_pending (s : State) : (countOrphan s).pending = s.pending := rfl

/-! ### countDuplicate -/

@[simp] theorem countDuplicate_time (s : State) : (countDuplicate s).time = s.time := rfl
@[simp] theorem countDuplicate_cfl (s : State) : (countDuplicate s).cfl = s.cfl := rfl
@[simp] theorem countDuplicate_rxc_reception (s : State) : (countDuplicate s).rxc.reception = s.rxc.reception := rfl
@[simp] theorem countDuplicate_cau (s : State) : (countDuplicate s).cau = s.cau := rfl
@[simp] theorem countDuplicate_asu (s : State) : (countDuplicate s).asu = s.asu := rfl
@[simp] theorem countDuplicate_bpl (s : State) : (countDuplicate s).bpl = s.bpl := rfl
@[simp] theorem countDuplicate_odu (s : State) : (countDuplicate s).odu = s.odu := rfl
@[simp] theorem countDuplicate_tmu (s : State) : (countDuplicate s).tmu = s.tmu := rfl
@[simp] theorem countDuplicate_stu (s : State) : (countDuplicate s).stu = s.stu := rfl
@[simp] theorem countDuplicate_tpt (s : State) : (countDuplicate s).tpt = s.tpt := rfl
@[simp] theorem countDuplicate_pins (s : State) : (countDuplicate s).pins = s.pins := rfl
@[simp] theorem countDuplicate_pending (s : State) : (countDuplicate s).pending = s.pending := rfl

/-! ### countStray -/

@[simp] theorem countStray_time (s : State) : (countStray s).time = s.time := rfl
@[simp] theorem countStray_cfl (s : State) : (countStray s).cfl = s.cfl := rfl
@[simp] theorem countStray_rxc_reception (s : State) : (countStray s).rxc.reception = s.rxc.reception := rfl
@[simp] theorem countStray_cau (s : State) : (countStray s).cau = s.cau := rfl
@[simp] theorem countStray_asu (s : State) : (countStray s).asu = s.asu := rfl
@[simp] theorem countStray_bpl (s : State) : (countStray s).bpl = s.bpl := rfl
@[simp] theorem countStray_odu (s : State) : (countStray s).odu = s.odu := rfl
@[simp] theorem countStray_tmu (s : State) : (countStray s).tmu = s.tmu := rfl
@[simp] theorem countStray_stu (s : State) : (countStray s).stu = s.stu := rfl
@[simp] theorem countStray_tpt (s : State) : (countStray s).tpt = s.tpt := rfl
@[simp] theorem countStray_pins (s : State) : (countStray s).pins = s.pins := rfl
@[simp] theorem countStray_pending (s : State) : (countStray s).pending = s.pending := rfl

/-! ### drivePins -/

@[simp] theorem drivePins_time (s : State) : (drivePins s).time = s.time := rfl
@[simp] theorem drivePins_cfl (s : State) : (drivePins s).cfl = s.cfl := rfl
@[simp] theorem drivePins_rxc (s : State) : (drivePins s).rxc = s.rxc := rfl
@[simp] theorem drivePins_cau (s : State) : (drivePins s).cau = s.cau := rfl
@[simp] theorem drivePins_asu (s : State) : (drivePins s).asu = s.asu := rfl
@[simp] theorem drivePins_bpl (s : State) : (drivePins s).bpl = s.bpl := rfl
@[simp] theorem drivePins_odu (s : State) : (drivePins s).odu = s.odu := rfl
@[simp] theorem drivePins_tmu (s : State) : (drivePins s).tmu = s.tmu := rfl
@[simp] theorem drivePins_stu (s : State) : (drivePins s).stu = s.stu := rfl
@[simp] theorem drivePins_tpt (s : State) : (drivePins s).tpt = s.tpt := rfl
@[simp] theorem drivePins_pending (s : State) : (drivePins s).pending = s.pending := rfl

/-! ### returnBuffers -/

@[simp] theorem returnBuffers_time (buffers : List BufferNumber) (s : State) : (returnBuffers buffers s).time = s.time := rfl
@[simp] theorem returnBuffers_cfl (buffers : List BufferNumber) (s : State) : (returnBuffers buffers s).cfl = s.cfl := rfl
@[simp] theorem returnBuffers_rxc (buffers : List BufferNumber) (s : State) : (returnBuffers buffers s).rxc = s.rxc := rfl
@[simp] theorem returnBuffers_cau (buffers : List BufferNumber) (s : State) : (returnBuffers buffers s).cau = s.cau := rfl
@[simp] theorem returnBuffers_asu (buffers : List BufferNumber) (s : State) : (returnBuffers buffers s).asu = s.asu := rfl
@[simp] theorem returnBuffers_bpl_held (buffers : List BufferNumber) (s : State) : (returnBuffers buffers s).bpl.held = s.bpl.held := rfl
@[simp] theorem returnBuffers_bpl_memory (buffers : List BufferNumber) (s : State) : (returnBuffers buffers s).bpl.memory = s.bpl.memory := rfl
@[simp] theorem returnBuffers_odu (buffers : List BufferNumber) (s : State) : (returnBuffers buffers s).odu = s.odu := rfl
@[simp] theorem returnBuffers_tmu (buffers : List BufferNumber) (s : State) : (returnBuffers buffers s).tmu = s.tmu := rfl
@[simp] theorem returnBuffers_stu (buffers : List BufferNumber) (s : State) : (returnBuffers buffers s).stu = s.stu := rfl
@[simp] theorem returnBuffers_tpt (buffers : List BufferNumber) (s : State) : (returnBuffers buffers s).tpt = s.tpt := rfl
@[simp] theorem returnBuffers_pins (buffers : List BufferNumber) (s : State) : (returnBuffers buffers s).pins = s.pins := rfl
@[simp] theorem returnBuffers_pending (buffers : List BufferNumber) (s : State) : (returnBuffers buffers s).pending = s.pending := rfl

/-! ### vacate -/

@[simp] theorem vacate_time (i : Nat) (s : State) : (vacate i s).time = s.time := rfl
@[simp] theorem vacate_cfl (i : Nat) (s : State) : (vacate i s).cfl = s.cfl := rfl
@[simp] theorem vacate_rxc (i : Nat) (s : State) : (vacate i s).rxc = s.rxc := rfl
@[simp] theorem vacate_cau (i : Nat) (s : State) : (vacate i s).cau = s.cau := rfl
@[simp] theorem vacate_asu_rcq (i : Nat) (s : State) : (vacate i s).asu.rcq = s.asu.rcq := rfl
@[simp] theorem vacate_asu_exq (i : Nat) (s : State) : (vacate i s).asu.exq = s.asu.exq := rfl
@[simp] theorem vacate_asu_agingMs (i : Nat) (s : State) : (vacate i s).asu.agingMs = s.asu.agingMs := rfl
@[simp] theorem vacate_bpl (i : Nat) (s : State) : (vacate i s).bpl = s.bpl := rfl
@[simp] theorem vacate_odu (i : Nat) (s : State) : (vacate i s).odu = s.odu := rfl
@[simp] theorem vacate_tmu (i : Nat) (s : State) : (vacate i s).tmu = s.tmu := rfl
@[simp] theorem vacate_stu (i : Nat) (s : State) : (vacate i s).stu = s.stu := rfl
@[simp] theorem vacate_tpt (i : Nat) (s : State) : (vacate i s).tpt = s.tpt := rfl
@[simp] theorem vacate_pins (i : Nat) (s : State) : (vacate i s).pins = s.pins := rfl
@[simp] theorem vacate_pending (i : Nat) (s : State) : (vacate i s).pending = s.pending := rfl

/-! ### abandon -/

@[simp] theorem abandon_time (i : Nat) (c : Context) (s : State) : (abandon i c s).time = s.time := rfl
@[simp] theorem abandon_cfl (i : Nat) (c : Context) (s : State) : (abandon i c s).cfl = s.cfl := rfl
@[simp] theorem abandon_rxc (i : Nat) (c : Context) (s : State) : (abandon i c s).rxc = s.rxc := rfl
@[simp] theorem abandon_cau (i : Nat) (c : Context) (s : State) : (abandon i c s).cau = s.cau := rfl
@[simp] theorem abandon_asu_rcq (i : Nat) (c : Context) (s : State) : (abandon i c s).asu.rcq = s.asu.rcq := rfl
@[simp] theorem abandon_asu_exq (i : Nat) (c : Context) (s : State) : (abandon i c s).asu.exq = s.asu.exq := rfl
@[simp] theorem abandon_asu_agingMs (i : Nat) (c : Context) (s : State) : (abandon i c s).asu.agingMs = s.asu.agingMs := rfl
@[simp] theorem abandon_bpl_held (i : Nat) (c : Context) (s : State) : (abandon i c s).bpl.held = s.bpl.held := rfl
@[simp] theorem abandon_bpl_memory (i : Nat) (c : Context) (s : State) : (abandon i c s).bpl.memory = s.bpl.memory := rfl
@[simp] theorem abandon_odu (i : Nat) (c : Context) (s : State) : (abandon i c s).odu = s.odu := rfl
@[simp] theorem abandon_tmu (i : Nat) (c : Context) (s : State) : (abandon i c s).tmu = s.tmu := rfl
@[simp] theorem abandon_stu (i : Nat) (c : Context) (s : State) : (abandon i c s).stu = s.stu := rfl
@[simp] theorem abandon_tpt (i : Nat) (c : Context) (s : State) : (abandon i c s).tpt = s.tpt := rfl
@[simp] theorem abandon_pins (i : Nat) (c : Context) (s : State) : (abandon i c s).pins = s.pins := rfl
@[simp] theorem abandon_pending (i : Nat) (c : Context) (s : State) : (abandon i c s).pending = s.pending := rfl

/-! ### clearContexts -/

@[simp] theorem clearContexts_time (s : State) : (clearContexts s).time = s.time := rfl
@[simp] theorem clearContexts_cfl (s : State) : (clearContexts s).cfl = s.cfl := rfl
@[simp] theorem clearContexts_rxc (s : State) : (clearContexts s).rxc = s.rxc := rfl
@[simp] theorem clearContexts_cau (s : State) : (clearContexts s).cau = s.cau := rfl
@[simp] theorem clearContexts_asu_rcq (s : State) : (clearContexts s).asu.rcq = s.asu.rcq := rfl
@[simp] theorem clearContexts_asu_exq (s : State) : (clearContexts s).asu.exq = s.asu.exq := rfl
@[simp] theorem clearContexts_asu_agingMs (s : State) : (clearContexts s).asu.agingMs = s.asu.agingMs := rfl
@[simp] theorem clearContexts_bpl_held (s : State) : (clearContexts s).bpl.held = s.bpl.held := rfl
@[simp] theorem clearContexts_bpl_memory (s : State) : (clearContexts s).bpl.memory = s.bpl.memory := rfl
@[simp] theorem clearContexts_odu (s : State) : (clearContexts s).odu = s.odu := rfl
@[simp] theorem clearContexts_tmu (s : State) : (clearContexts s).tmu = s.tmu := rfl
@[simp] theorem clearContexts_stu (s : State) : (clearContexts s).stu = s.stu := rfl
@[simp] theorem clearContexts_tpt (s : State) : (clearContexts s).tpt = s.tpt := rfl
@[simp] theorem clearContexts_pins (s : State) : (clearContexts s).pins = s.pins := rfl
@[simp] theorem clearContexts_pending (s : State) : (clearContexts s).pending = s.pending := rfl

/-! ### paceDecrease -/

@[simp] theorem paceDecrease_time (s : State) : (paceDecrease s).time = s.time := rfl
@[simp] theorem paceDecrease_cfl (s : State) : (paceDecrease s).cfl = s.cfl := rfl
@[simp] theorem paceDecrease_rxc (s : State) : (paceDecrease s).rxc = s.rxc := rfl
@[simp] theorem paceDecrease_cau_sense (s : State) : (paceDecrease s).cau.sense = s.cau.sense := rfl
@[simp] theorem paceDecrease_cau_occupancy (s : State) : (paceDecrease s).cau.occupancy = s.cau.occupancy := rfl
@[simp] theorem paceDecrease_cau_average (s : State) : (paceDecrease s).cau.average = s.cau.average := rfl
@[simp] theorem paceDecrease_cau_crowded (s : State) : (paceDecrease s).cau.crowded = s.cau.crowded := rfl
@[simp] theorem paceDecrease_cau_crowdedHeard (s : State) : (paceDecrease s).cau.crowdedHeard = s.cau.crowdedHeard := rfl
@[simp] theorem paceDecrease_cau_credit (s : State) : (paceDecrease s).cau.credit = s.cau.credit := rfl
@[simp] theorem paceDecrease_cau_paceSamples (s : State) : (paceDecrease s).cau.paceSamples = s.cau.paceSamples := rfl
@[simp] theorem paceDecrease_cau_staging (s : State) : (paceDecrease s).cau.staging = s.cau.staging := rfl
@[simp] theorem paceDecrease_cau_onAir (s : State) : (paceDecrease s).cau.onAir = s.cau.onAir := rfl
@[simp] theorem paceDecrease_cau_onAirSamples (s : State) : (paceDecrease s).cau.onAirSamples = s.cau.onAirSamples := rfl
@[simp] theorem paceDecrease_cau_access (s : State) : (paceDecrease s).cau.access = s.cau.access := rfl
@[simp] theorem paceDecrease_cau_gapCount (s : State) : (paceDecrease s).cau.gapCount = s.cau.gapCount := rfl
@[simp] theorem paceDecrease_cau_slotCount (s : State) : (paceDecrease s).cau.slotCount = s.cau.slotCount := rfl
@[simp] theorem paceDecrease_cau_gateOpen (s : State) : (paceDecrease s).cau.gateOpen = s.cau.gateOpen := rfl
@[simp] theorem paceDecrease_cau_allstopRequest (s : State) : (paceDecrease s).cau.allstopRequest = s.cau.allstopRequest := rfl
@[simp] theorem paceDecrease_cau_generator (s : State) : (paceDecrease s).cau.generator = s.cau.generator := rfl
@[simp] theorem paceDecrease_asu (s : State) : (paceDecrease s).asu = s.asu := rfl
@[simp] theorem paceDecrease_bpl (s : State) : (paceDecrease s).bpl = s.bpl := rfl
@[simp] theorem paceDecrease_odu (s : State) : (paceDecrease s).odu = s.odu := rfl
@[simp] theorem paceDecrease_tmu (s : State) : (paceDecrease s).tmu = s.tmu := rfl
@[simp] theorem paceDecrease_stu (s : State) : (paceDecrease s).stu = s.stu := rfl
@[simp] theorem paceDecrease_tpt (s : State) : (paceDecrease s).tpt = s.tpt := rfl
@[simp] theorem paceDecrease_pins (s : State) : (paceDecrease s).pins = s.pins := rfl
@[simp] theorem paceDecrease_pending (s : State) : (paceDecrease s).pending = s.pending := rfl

/-! ### paceIncrease -/

@[simp] theorem paceIncrease_time (s : State) : (paceIncrease s).time = s.time := rfl
@[simp] theorem paceIncrease_cfl (s : State) : (paceIncrease s).cfl = s.cfl := rfl
@[simp] theorem paceIncrease_rxc (s : State) : (paceIncrease s).rxc = s.rxc := rfl
@[simp] theorem paceIncrease_cau_sense (s : State) : (paceIncrease s).cau.sense = s.cau.sense := rfl
@[simp] theorem paceIncrease_cau_occupancy (s : State) : (paceIncrease s).cau.occupancy = s.cau.occupancy := rfl
@[simp] theorem paceIncrease_cau_average (s : State) : (paceIncrease s).cau.average = s.cau.average := rfl
@[simp] theorem paceIncrease_cau_crowded (s : State) : (paceIncrease s).cau.crowded = s.cau.crowded := rfl
@[simp] theorem paceIncrease_cau_crowdedHeard (s : State) : (paceIncrease s).cau.crowdedHeard = s.cau.crowdedHeard := rfl
@[simp] theorem paceIncrease_cau_credit (s : State) : (paceIncrease s).cau.credit = s.cau.credit := rfl
@[simp] theorem paceIncrease_cau_paceSamples (s : State) : (paceIncrease s).cau.paceSamples = s.cau.paceSamples := rfl
@[simp] theorem paceIncrease_cau_staging (s : State) : (paceIncrease s).cau.staging = s.cau.staging := rfl
@[simp] theorem paceIncrease_cau_onAir (s : State) : (paceIncrease s).cau.onAir = s.cau.onAir := rfl
@[simp] theorem paceIncrease_cau_onAirSamples (s : State) : (paceIncrease s).cau.onAirSamples = s.cau.onAirSamples := rfl
@[simp] theorem paceIncrease_cau_access (s : State) : (paceIncrease s).cau.access = s.cau.access := rfl
@[simp] theorem paceIncrease_cau_gapCount (s : State) : (paceIncrease s).cau.gapCount = s.cau.gapCount := rfl
@[simp] theorem paceIncrease_cau_slotCount (s : State) : (paceIncrease s).cau.slotCount = s.cau.slotCount := rfl
@[simp] theorem paceIncrease_cau_gateOpen (s : State) : (paceIncrease s).cau.gateOpen = s.cau.gateOpen := rfl
@[simp] theorem paceIncrease_cau_allstopRequest (s : State) : (paceIncrease s).cau.allstopRequest = s.cau.allstopRequest := rfl
@[simp] theorem paceIncrease_cau_generator (s : State) : (paceIncrease s).cau.generator = s.cau.generator := rfl
@[simp] theorem paceIncrease_asu (s : State) : (paceIncrease s).asu = s.asu := rfl
@[simp] theorem paceIncrease_bpl (s : State) : (paceIncrease s).bpl = s.bpl := rfl
@[simp] theorem paceIncrease_odu (s : State) : (paceIncrease s).odu = s.odu := rfl
@[simp] theorem paceIncrease_tmu (s : State) : (paceIncrease s).tmu = s.tmu := rfl
@[simp] theorem paceIncrease_stu (s : State) : (paceIncrease s).stu = s.stu := rfl
@[simp] theorem paceIncrease_tpt (s : State) : (paceIncrease s).tpt = s.tpt := rfl
@[simp] theorem paceIncrease_pins (s : State) : (paceIncrease s).pins = s.pins := rfl
@[simp] theorem paceIncrease_pending (s : State) : (paceIncrease s).pending = s.pending := rfl

/-! ### refundCredit -/

@[simp] theorem refundCredit_time (s : State) : (refundCredit s).time = s.time := rfl
@[simp] theorem refundCredit_cfl (s : State) : (refundCredit s).cfl = s.cfl := rfl
@[simp] theorem refundCredit_rxc (s : State) : (refundCredit s).rxc = s.rxc := rfl
@[simp] theorem refundCredit_cau_sense (s : State) : (refundCredit s).cau.sense = s.cau.sense := rfl
@[simp] theorem refundCredit_cau_occupancy (s : State) : (refundCredit s).cau.occupancy = s.cau.occupancy := rfl
@[simp] theorem refundCredit_cau_average (s : State) : (refundCredit s).cau.average = s.cau.average := rfl
@[simp] theorem refundCredit_cau_crowded (s : State) : (refundCredit s).cau.crowded = s.cau.crowded := rfl
@[simp] theorem refundCredit_cau_crowdedHeard (s : State) : (refundCredit s).cau.crowdedHeard = s.cau.crowdedHeard := rfl
@[simp] theorem refundCredit_cau_rate (s : State) : (refundCredit s).cau.rate = s.cau.rate := rfl
@[simp] theorem refundCredit_cau_paceSamples (s : State) : (refundCredit s).cau.paceSamples = s.cau.paceSamples := rfl
@[simp] theorem refundCredit_cau_staging (s : State) : (refundCredit s).cau.staging = s.cau.staging := rfl
@[simp] theorem refundCredit_cau_onAir (s : State) : (refundCredit s).cau.onAir = s.cau.onAir := rfl
@[simp] theorem refundCredit_cau_onAirSamples (s : State) : (refundCredit s).cau.onAirSamples = s.cau.onAirSamples := rfl
@[simp] theorem refundCredit_cau_access (s : State) : (refundCredit s).cau.access = s.cau.access := rfl
@[simp] theorem refundCredit_cau_gapCount (s : State) : (refundCredit s).cau.gapCount = s.cau.gapCount := rfl
@[simp] theorem refundCredit_cau_slotCount (s : State) : (refundCredit s).cau.slotCount = s.cau.slotCount := rfl
@[simp] theorem refundCredit_cau_gateOpen (s : State) : (refundCredit s).cau.gateOpen = s.cau.gateOpen := rfl
@[simp] theorem refundCredit_cau_allstopRequest (s : State) : (refundCredit s).cau.allstopRequest = s.cau.allstopRequest := rfl
@[simp] theorem refundCredit_cau_generator (s : State) : (refundCredit s).cau.generator = s.cau.generator := rfl
@[simp] theorem refundCredit_asu (s : State) : (refundCredit s).asu = s.asu := rfl
@[simp] theorem refundCredit_bpl (s : State) : (refundCredit s).bpl = s.bpl := rfl
@[simp] theorem refundCredit_odu (s : State) : (refundCredit s).odu = s.odu := rfl
@[simp] theorem refundCredit_tmu (s : State) : (refundCredit s).tmu = s.tmu := rfl
@[simp] theorem refundCredit_stu (s : State) : (refundCredit s).stu = s.stu := rfl
@[simp] theorem refundCredit_tpt (s : State) : (refundCredit s).tpt = s.tpt := rfl
@[simp] theorem refundCredit_pins (s : State) : (refundCredit s).pins = s.pins := rfl
@[simp] theorem refundCredit_pending (s : State) : (refundCredit s).pending = s.pending := rfl

/-! ### chargeCredit -/

@[simp] theorem chargeCredit_time (s : State) : (chargeCredit s).time = s.time := by simp only [chargeCredit]
@[simp] theorem chargeCredit_cfl (s : State) : (chargeCredit s).cfl = s.cfl := by simp only [chargeCredit]
@[simp] theorem chargeCredit_rxc (s : State) : (chargeCredit s).rxc = s.rxc := by simp only [chargeCredit]
@[simp] theorem chargeCredit_cau_sense (s : State) : (chargeCredit s).cau.sense = s.cau.sense := by simp only [chargeCredit]
@[simp] theorem chargeCredit_cau_occupancy (s : State) : (chargeCredit s).cau.occupancy = s.cau.occupancy := by simp only [chargeCredit]
@[simp] theorem chargeCredit_cau_average (s : State) : (chargeCredit s).cau.average = s.cau.average := by simp only [chargeCredit]
@[simp] theorem chargeCredit_cau_crowded (s : State) : (chargeCredit s).cau.crowded = s.cau.crowded := by simp only [chargeCredit]
@[simp] theorem chargeCredit_cau_crowdedHeard (s : State) : (chargeCredit s).cau.crowdedHeard = s.cau.crowdedHeard := by simp only [chargeCredit]
@[simp] theorem chargeCredit_cau_rate (s : State) : (chargeCredit s).cau.rate = s.cau.rate := by simp only [chargeCredit]
@[simp] theorem chargeCredit_cau_paceSamples (s : State) : (chargeCredit s).cau.paceSamples = s.cau.paceSamples := by simp only [chargeCredit]
@[simp] theorem chargeCredit_cau_staging (s : State) : (chargeCredit s).cau.staging = s.cau.staging := by simp only [chargeCredit]
@[simp] theorem chargeCredit_cau_onAir (s : State) : (chargeCredit s).cau.onAir = s.cau.onAir := by simp only [chargeCredit]
@[simp] theorem chargeCredit_cau_onAirSamples (s : State) : (chargeCredit s).cau.onAirSamples = s.cau.onAirSamples := by simp only [chargeCredit]
@[simp] theorem chargeCredit_cau_access (s : State) : (chargeCredit s).cau.access = s.cau.access := by simp only [chargeCredit]
@[simp] theorem chargeCredit_cau_gapCount (s : State) : (chargeCredit s).cau.gapCount = s.cau.gapCount := by simp only [chargeCredit]
@[simp] theorem chargeCredit_cau_slotCount (s : State) : (chargeCredit s).cau.slotCount = s.cau.slotCount := by simp only [chargeCredit]
@[simp] theorem chargeCredit_cau_gateOpen (s : State) : (chargeCredit s).cau.gateOpen = s.cau.gateOpen := by simp only [chargeCredit]
@[simp] theorem chargeCredit_cau_allstopRequest (s : State) : (chargeCredit s).cau.allstopRequest = s.cau.allstopRequest := by simp only [chargeCredit]
@[simp] theorem chargeCredit_cau_generator (s : State) : (chargeCredit s).cau.generator = s.cau.generator := by simp only [chargeCredit]
@[simp] theorem chargeCredit_asu (s : State) : (chargeCredit s).asu = s.asu := by simp only [chargeCredit]
@[simp] theorem chargeCredit_bpl (s : State) : (chargeCredit s).bpl = s.bpl := by simp only [chargeCredit]
@[simp] theorem chargeCredit_odu (s : State) : (chargeCredit s).odu = s.odu := by simp only [chargeCredit]
@[simp] theorem chargeCredit_tmu (s : State) : (chargeCredit s).tmu = s.tmu := by simp only [chargeCredit]
@[simp] theorem chargeCredit_stu (s : State) : (chargeCredit s).stu = s.stu := by simp only [chargeCredit]
@[simp] theorem chargeCredit_tpt (s : State) : (chargeCredit s).tpt = s.tpt := by simp only [chargeCredit]
@[simp] theorem chargeCredit_pins (s : State) : (chargeCredit s).pins = s.pins := by simp only [chargeCredit]
@[simp] theorem chargeCredit_pending (s : State) : (chargeCredit s).pending = s.pending := by simp only [chargeCredit]

/-! ### setSlot -/

@[simp] theorem setSlot_time (slot : Nat) (o : Option Order) (s : State) : (setSlot slot o s).time = s.time := rfl
@[simp] theorem setSlot_cfl (slot : Nat) (o : Option Order) (s : State) : (setSlot slot o s).cfl = s.cfl := rfl
@[simp] theorem setSlot_rxc (slot : Nat) (o : Option Order) (s : State) : (setSlot slot o s).rxc = s.rxc := rfl
@[simp] theorem setSlot_cau (slot : Nat) (o : Option Order) (s : State) : (setSlot slot o s).cau = s.cau := rfl
@[simp] theorem setSlot_asu (slot : Nat) (o : Option Order) (s : State) : (setSlot slot o s).asu = s.asu := rfl
@[simp] theorem setSlot_bpl (slot : Nat) (o : Option Order) (s : State) : (setSlot slot o s).bpl = s.bpl := rfl
@[simp] theorem setSlot_odu_rsq (slot : Nat) (o : Option Order) (s : State) : (setSlot slot o s).odu.rsq = s.odu.rsq := rfl
@[simp] theorem setSlot_odu_rbq (slot : Nat) (o : Option Order) (s : State) : (setSlot slot o s).odu.rbq = s.odu.rbq := rfl
@[simp] theorem setSlot_odu_callNumber (slot : Nat) (o : Option Order) (s : State) : (setSlot slot o s).odu.callNumber = s.odu.callNumber := rfl
@[simp] theorem setSlot_odu_nextSequence (slot : Nat) (o : Option Order) (s : State) : (setSlot slot o s).odu.nextSequence = s.odu.nextSequence := rfl
@[simp] theorem setSlot_odu_finishedSlots (slot : Nat) (o : Option Order) (s : State) : (setSlot slot o s).odu.finishedSlots = s.odu.finishedSlots := rfl
@[simp] theorem setSlot_tmu (slot : Nat) (o : Option Order) (s : State) : (setSlot slot o s).tmu = s.tmu := rfl
@[simp] theorem setSlot_stu (slot : Nat) (o : Option Order) (s : State) : (setSlot slot o s).stu = s.stu := rfl
@[simp] theorem setSlot_tpt (slot : Nat) (o : Option Order) (s : State) : (setSlot slot o s).tpt = s.tpt := rfl
@[simp] theorem setSlot_pins (slot : Nat) (o : Option Order) (s : State) : (setSlot slot o s).pins = s.pins := rfl
@[simp] theorem setSlot_pending (slot : Nat) (o : Option Order) (s : State) : (setSlot slot o s).pending = s.pending := rfl
/-! ### What the updates write -/

@[simp] theorem countGood_burstsGood (s : State) : (countGood s).rxc.counts.burstsGood = countUp s.rxc.counts.burstsGood := rfl
@[simp] theorem countCheckFailure_checkFailures (s : State) :
    (countCheckFailure s).rxc.counts.checkFailures = countUp s.rxc.counts.checkFailures := rfl
@[simp] theorem countForeign_foreignBursts (s : State) :
    (countForeign s).rxc.counts.foreignBursts = countUp s.rxc.counts.foreignBursts := rfl
@[simp] theorem countOrphan_orphanFragments (s : State) :
    (countOrphan s).rxc.counts.orphanFragments = countUp s.rxc.counts.orphanFragments := rfl
@[simp] theorem countDuplicate_duplicateCalls (s : State) :
    (countDuplicate s).rxc.counts.duplicateCalls = countUp s.rxc.counts.duplicateCalls := rfl
@[simp] theorem countStray_strayReadbacks (s : State) :
    (countStray s).rxc.counts.strayReadbacks = countUp s.rxc.counts.strayReadbacks := rfl
@[simp] theorem drivePins_pins (s : State) :
    (drivePins s).pins = { stopd := stopdAsserted s, interrupt := interruptActive s, key := s.cau.onAir.isSome } := rfl
@[simp] theorem returnBuffers_free (buffers : List BufferNumber) (s : State) :
    (returnBuffers buffers s).bpl.free = s.bpl.free ++ buffers := rfl
@[simp] theorem vacate_contexts (i : Nat) (s : State) : (vacate i s).asu.contexts = s.asu.contexts.set i none := rfl
@[simp] theorem abandon_contexts (i : Nat) (c : Context) (s : State) :
    (abandon i c s).asu.contexts = s.asu.contexts.set i none := rfl
@[simp] theorem abandon_free (i : Nat) (c : Context) (s : State) : (abandon i c s).bpl.free = s.bpl.free ++ c.buffers := rfl
@[simp] theorem clearContexts_contexts (s : State) :
    (clearContexts s).asu.contexts = s.asu.contexts.map (fun _ => none) := rfl
@[simp] theorem clearContexts_free (s : State) :
    (clearContexts s).bpl.free = s.bpl.free ++ contextBuffers s.asu.contexts := rfl
@[simp] theorem paceDecrease_rate (s : State) : (paceDecrease s).cau.rate = decreasedRate s.config s.cau.rate := rfl
@[simp] theorem paceIncrease_rate (s : State) :
    (paceIncrease s).cau.rate = min s.config.rMax (s.cau.rate + s.config.increase) := rfl
@[simp] theorem refundCredit_credit (s : State) : (refundCredit s).cau.credit = min 1024 (s.cau.credit + 256) := rfl
@[simp] theorem chargeCredit_credit (s : State) : (chargeCredit s).cau.credit = s.cau.credit - 256 := by simp only [chargeCredit]
@[simp] theorem setSlot_ool (slot : Nat) (o : Option Order) (s : State) : (setSlot slot o s).odu.ool = s.odu.ool.set slot o := rfl

/-! ### What depends on the configuration part alone -/

theorem config_of_cfl {s t : State} (h : t.cfl = s.cfl) : t.config = s.config := by simp [State.config, h]

theorem running_of_cfl {s t : State} (h : t.cfl = s.cfl) : running t = running s := by simp [running, h]

theorem isLocomotive_of_cfl {s t : State} (h : t.cfl = s.cfl) : isLocomotive t = isLocomotive s := by
  simp [isLocomotive, config_of_cfl h]

/-- The outputs follow again in a state that agrees where they look (R130, R149, R39). -/
theorem pins_of_agree {s t : State} (hc : t.cfl = s.cfl) (hs : t.stu.causes = s.stu.causes) (hm : t.tpt.mask = s.tpt.mask)
    (hf : t.tpt.flags = s.tpt.flags) (hq : t.asu.rcq = s.asu.rcq) (hx : t.asu.exq = s.asu.exq) (hr : t.odu.rsq = s.odu.rsq)
    (ho : t.cau.onAir = s.cau.onAir) : (drivePins t).pins = (drivePins s).pins := by
  simp [stopdAsserted, interruptActive, isLocomotive_of_cfl hc, hc, hs, hm, hf, hq, hx, hr, ho]

end Sys2Proof.Machine
end

