-- ==== Sys2Proof/Laws/Frames.lean ====
section
/-! SUPPORT. One frame lemma per shared operation: the state that it leaves alone, in every case. -/

namespace Sys2Proof.Machine

/-! #### Stop causes and exceptions -/

@[simp] theorem setCauses_frame (c : Causes) (s : State) :
    (setCauses c s).time = s.time ∧ (setCauses c s).cfl = s.cfl ∧ (setCauses c s).rxc = s.rxc ∧ (setCauses c s).cau = s.cau ∧
    (setCauses c s).asu = s.asu ∧ (setCauses c s).bpl = s.bpl ∧ (setCauses c s).odu = s.odu ∧ (setCauses c s).tmu = s.tmu ∧
    (setCauses c s).stu.hold = s.stu.hold ∧ (setCauses c s).stu.repeatCount = s.stu.repeatCount ∧
    (setCauses c s).stu.seriesTeam = s.stu.seriesTeam ∧ (setCauses c s).stu.cabInput = s.stu.cabInput ∧
    (setCauses c s).tpt.mask = s.tpt.mask ∧ (setCauses c s).tpt.range = s.tpt.range ∧ (setCauses c s).tpt.port = s.tpt.port ∧
    (setCauses c s).pins = s.pins ∧ (setCauses c s).pending = s.pending := by
  generalize hb : setCauses c s = t
  unfold setCauses at hb
  (repeat' split at hb) <;> subst hb <;> simp

@[simp] theorem putRadioStop_frame (s : State) :
    (putRadioStop s).time = s.time ∧ (putRadioStop s).cfl = s.cfl ∧ (putRadioStop s).rxc = s.rxc ∧ (putRadioStop s).cau = s.cau ∧
    (putRadioStop s).asu = s.asu ∧ (putRadioStop s).bpl = s.bpl ∧ (putRadioStop s).odu = s.odu ∧ (putRadioStop s).tmu = s.tmu ∧
    (putRadioStop s).stu.hold = s.stu.hold ∧ (putRadioStop s).stu.repeatCount = s.stu.repeatCount ∧
    (putRadioStop s).stu.seriesTeam = s.stu.seriesTeam ∧ (putRadioStop s).stu.cabInput = s.stu.cabInput ∧
    (putRadioStop s).tpt.mask = s.tpt.mask ∧ (putRadioStop s).tpt.range = s.tpt.range ∧ (putRadioStop s).tpt.port = s.tpt.port ∧
    (putRadioStop s).pins = s.pins ∧ (putRadioStop s).pending = s.pending := by
  generalize hb : putRadioStop s = t
  unfold putRadioStop at hb
  (repeat' split at hb) <;> subst hb <;> simp

@[simp] theorem putAllstopCause_frame (s : State) :
    (putAllstopCause s).time = s.time ∧ (putAllstopCause s).cfl = s.cfl ∧ (putAllstopCause s).rxc = s.rxc ∧
    (putAllstopCause s).cau = s.cau ∧ (putAllstopCause s).asu = s.asu ∧ (putAllstopCause s).bpl = s.bpl ∧
    (putAllstopCause s).odu = s.odu ∧ (putAllstopCause s).tmu = s.tmu ∧ (putAllstopCause s).stu.hold = s.stu.hold ∧
    (putAllstopCause s).stu.repeatCount = s.stu.repeatCount ∧ (putAllstopCause s).stu.seriesTeam = s.stu.seriesTeam ∧
    (putAllstopCause s).stu.cabInput = s.stu.cabInput ∧ (putAllstopCause s).tpt.mask = s.tpt.mask ∧
    (putAllstopCause s).tpt.range = s.tpt.range ∧ (putAllstopCause s).tpt.port = s.tpt.port ∧ (putAllstopCause s).pins = s.pins ∧
    (putAllstopCause s).pending = s.pending := by
  generalize hb : putAllstopCause s = t
  unfold putAllstopCause at hb
  (repeat' split at hb) <;> subst hb <;> simp

@[simp] theorem putSupervision_frame (s : State) :
    (putSupervision s).time = s.time ∧ (putSupervision s).cfl = s.cfl ∧ (putSupervision s).rxc = s.rxc ∧
    (putSupervision s).cau = s.cau ∧ (putSupervision s).asu = s.asu ∧ (putSupervision s).bpl = s.bpl ∧
    (putSupervision s).odu = s.odu ∧ (putSupervision s).tmu = s.tmu ∧ (putSupervision s).stu.hold = s.stu.hold ∧
    (putSupervision s).stu.repeatCount = s.stu.repeatCount ∧ (putSupervision s).stu.seriesTeam = s.stu.seriesTeam ∧
    (putSupervision s).stu.cabInput = s.stu.cabInput ∧ (putSupervision s).tpt.mask = s.tpt.mask ∧
    (putSupervision s).tpt.range = s.tpt.range ∧ (putSupervision s).tpt.port = s.tpt.port ∧ (putSupervision s).pins = s.pins ∧
    (putSupervision s).pending = s.pending := by
  generalize hb : putSupervision s = t
  unfold putSupervision at hb
  (repeat' split at hb) <;> subst hb <;> simp

@[simp] theorem putNoHolder_frame (s : State) :
    (putNoHolder s).time = s.time ∧ (putNoHolder s).cfl = s.cfl ∧ (putNoHolder s).rxc = s.rxc ∧ (putNoHolder s).cau = s.cau ∧
    (putNoHolder s).asu = s.asu ∧ (putNoHolder s).bpl = s.bpl ∧ (putNoHolder s).odu = s.odu ∧ (putNoHolder s).tmu = s.tmu ∧
    (putNoHolder s).stu.hold = s.stu.hold ∧ (putNoHolder s).stu.repeatCount = s.stu.repeatCount ∧
    (putNoHolder s).stu.seriesTeam = s.stu.seriesTeam ∧ (putNoHolder s).stu.cabInput = s.stu.cabInput ∧
    (putNoHolder s).tpt.mask = s.tpt.mask ∧ (putNoHolder s).tpt.range = s.tpt.range ∧ (putNoHolder s).tpt.port = s.tpt.port ∧
    (putNoHolder s).pins = s.pins ∧ (putNoHolder s).pending = s.pending := by
  generalize hb : putNoHolder s = t
  unfold putNoHolder at hb
  (repeat' split at hb) <;> subst hb <;> simp

@[simp] theorem takeNoHolder_frame (s : State) :
    (takeNoHolder s).time = s.time ∧ (takeNoHolder s).cfl = s.cfl ∧ (takeNoHolder s).rxc = s.rxc ∧ (takeNoHolder s).cau = s.cau ∧
    (takeNoHolder s).asu = s.asu ∧ (takeNoHolder s).bpl = s.bpl ∧ (takeNoHolder s).odu = s.odu ∧ (takeNoHolder s).tmu = s.tmu ∧
    (takeNoHolder s).stu.hold = s.stu.hold ∧ (takeNoHolder s).stu.repeatCount = s.stu.repeatCount ∧
    (takeNoHolder s).stu.seriesTeam = s.stu.seriesTeam ∧ (takeNoHolder s).stu.cabInput = s.stu.cabInput ∧
    (takeNoHolder s).tpt.mask = s.tpt.mask ∧ (takeNoHolder s).tpt.range = s.tpt.range ∧ (takeNoHolder s).tpt.port = s.tpt.port ∧
    (takeNoHolder s).pins = s.pins ∧ (takeNoHolder s).pending = s.pending := by
  generalize hb : takeNoHolder s = t
  unfold takeNoHolder at hb
  (repeat' split at hb) <;> subst hb <;> simp

@[simp] theorem setCab_frame (active : Bool) (s : State) :
    (setCab active s).time = s.time ∧ (setCab active s).cfl = s.cfl ∧ (setCab active s).rxc = s.rxc ∧ (setCab active s).cau = s.cau ∧
    (setCab active s).asu = s.asu ∧ (setCab active s).bpl = s.bpl ∧ (setCab active s).odu = s.odu ∧ (setCab active s).tmu = s.tmu ∧
    (setCab active s).stu.hold = s.stu.hold ∧ (setCab active s).stu.repeatCount = s.stu.repeatCount ∧
    (setCab active s).stu.seriesTeam = s.stu.seriesTeam ∧ (setCab active s).stu.cabInput = s.stu.cabInput ∧
    (setCab active s).tpt.mask = s.tpt.mask ∧ (setCab active s).tpt.range = s.tpt.range ∧ (setCab active s).tpt.port = s.tpt.port ∧
    (setCab active s).pins = s.pins ∧ (setCab active s).pending = s.pending := by
  generalize hb : setCab active s = t
  unfold setCab at hb
  (repeat' split at hb) <;> subst hb <;> simp

@[simp] theorem setTerminal_frame (present : Bool) (s : State) :
    (setTerminal present s).time = s.time ∧ (setTerminal present s).cfl = s.cfl ∧ (setTerminal present s).rxc = s.rxc ∧
    (setTerminal present s).cau = s.cau ∧ (setTerminal present s).asu = s.asu ∧ (setTerminal present s).bpl = s.bpl ∧
    (setTerminal present s).odu = s.odu ∧ (setTerminal present s).tmu = s.tmu ∧ (setTerminal present s).stu.hold = s.stu.hold ∧
    (setTerminal present s).stu.repeatCount = s.stu.repeatCount ∧ (setTerminal present s).stu.seriesTeam = s.stu.seriesTeam ∧
    (setTerminal present s).stu.cabInput = s.stu.cabInput ∧ (setTerminal present s).tpt.mask = s.tpt.mask ∧
    (setTerminal present s).tpt.range = s.tpt.range ∧ (setTerminal present s).tpt.port = s.tpt.port ∧
    (setTerminal present s).pins = s.pins ∧ (setTerminal present s).pending = s.pending := by
  generalize hb : setTerminal present s = t
  unfold setTerminal at hb
  (repeat' split at hb) <;> subst hb <;> simp

@[simp] theorem releaseCauses_frame (s : State) :
    (releaseCauses s).time = s.time ∧ (releaseCauses s).cfl = s.cfl ∧ (releaseCauses s).rxc = s.rxc ∧ (releaseCauses s).cau = s.cau ∧
    (releaseCauses s).asu = s.asu ∧ (releaseCauses s).bpl = s.bpl ∧ (releaseCauses s).odu = s.odu ∧ (releaseCauses s).tmu = s.tmu ∧
    (releaseCauses s).stu.hold = s.stu.hold ∧ (releaseCauses s).stu.repeatCount = s.stu.repeatCount ∧
    (releaseCauses s).stu.seriesTeam = s.stu.seriesTeam ∧ (releaseCauses s).stu.cabInput = s.stu.cabInput ∧
    (releaseCauses s).tpt.mask = s.tpt.mask ∧ (releaseCauses s).tpt.range = s.tpt.range ∧ (releaseCauses s).tpt.port = s.tpt.port ∧
    (releaseCauses s).pins = s.pins ∧ (releaseCauses s).pending = s.pending := by
  generalize hb : releaseCauses s = t
  unfold releaseCauses at hb
  (repeat' split at hb) <;> subst hb <;> simp

@[simp] theorem honourAllstop_frame (stamp : Stamp) (s : State) :
    (honourAllstop stamp s).time = s.time ∧ (honourAllstop stamp s).cfl = s.cfl ∧ (honourAllstop stamp s).rxc = s.rxc ∧
    (honourAllstop stamp s).cau = s.cau ∧ (honourAllstop stamp s).asu = s.asu ∧ (honourAllstop stamp s).bpl = s.bpl ∧
    (honourAllstop stamp s).odu = s.odu ∧ (honourAllstop stamp s).tmu = s.tmu ∧
    (honourAllstop stamp s).stu.repeatCount = s.stu.repeatCount ∧ (honourAllstop stamp s).stu.seriesTeam = s.stu.seriesTeam ∧
    (honourAllstop stamp s).stu.cabInput = s.stu.cabInput ∧ (honourAllstop stamp s).tpt.mask = s.tpt.mask ∧
    (honourAllstop stamp s).tpt.range = s.tpt.range ∧ (honourAllstop stamp s).tpt.port = s.tpt.port ∧
    (honourAllstop stamp s).pins = s.pins ∧ (honourAllstop stamp s).pending = s.pending := by
  generalize hb : honourAllstop stamp s = t
  unfold honourAllstop at hb
  (repeat' split at hb) <;> subst hb <;> simp

@[simp] theorem raiseException_frame (e : ExceptionEntry) (s : State) :
    (raiseException e s).time = s.time ∧ (raiseException e s).cfl = s.cfl ∧ (raiseException e s).rxc = s.rxc ∧
    (raiseException e s).cau = s.cau ∧ (raiseException e s).asu.contexts = s.asu.contexts ∧
    (raiseException e s).asu.rcq = s.asu.rcq ∧ (raiseException e s).asu.agingMs = s.asu.agingMs ∧ (raiseException e s).bpl = s.bpl ∧
    (raiseException e s).odu = s.odu ∧ (raiseException e s).tmu = s.tmu ∧ (raiseException e s).stu = s.stu ∧
    (raiseException e s).tpt.mask = s.tpt.mask ∧ (raiseException e s).tpt.range = s.tpt.range ∧
    (raiseException e s).tpt.port = s.tpt.port ∧ (raiseException e s).pins = s.pins ∧ (raiseException e s).pending = s.pending := by
  generalize hb : raiseException e s = t
  unfold raiseException at hb
  (repeat' split at hb) <;> subst hb <;> simp

/-! #### Transmitter -/

@[simp] theorem setPlace_frame (slot : Nat) (place : FragmentPlace) (s : State) :
    (setPlace slot place s).time = s.time ∧ (setPlace slot place s).cfl = s.cfl ∧ (setPlace slot place s).rxc = s.rxc ∧
    (setPlace slot place s).cau = s.cau ∧ (setPlace slot place s).asu = s.asu ∧ (setPlace slot place s).bpl = s.bpl ∧
    (setPlace slot place s).odu.rsq = s.odu.rsq ∧ (setPlace slot place s).odu.rbq = s.odu.rbq ∧
    (setPlace slot place s).odu.callNumber = s.odu.callNumber ∧ (setPlace slot place s).odu.nextSequence = s.odu.nextSequence ∧
    (setPlace slot place s).odu.finishedSlots = s.odu.finishedSlots ∧ (setPlace slot place s).tmu = s.tmu ∧
    (setPlace slot place s).stu = s.stu ∧ (setPlace slot place s).tpt = s.tpt ∧ (setPlace slot place s).pins = s.pins ∧
    (setPlace slot place s).pending = s.pending := by
  generalize hb : setPlace slot place s = t
  unfold setPlace at hb
  (repeat' split at hb) <;> subst hb <;> simp

@[simp] theorem noteStaged_frame (source : Source) (s : State) :
    (noteStaged source s).time = s.time ∧ (noteStaged source s).cfl = s.cfl ∧ (noteStaged source s).rxc = s.rxc ∧
    (noteStaged source s).cau.sense = s.cau.sense ∧ (noteStaged source s).cau.occupancy = s.cau.occupancy ∧
    (noteStaged source s).cau.average = s.cau.average ∧ (noteStaged source s).cau.crowded = s.cau.crowded ∧
    (noteStaged source s).cau.crowdedHeard = s.cau.crowdedHeard ∧ (noteStaged source s).cau.rate = s.cau.rate ∧
    (noteStaged source s).cau.paceSamples = s.cau.paceSamples ∧ (noteStaged source s).cau.onAir = s.cau.onAir ∧
    (noteStaged source s).cau.gateOpen = s.cau.gateOpen ∧ (noteStaged source s).cau.allstopRequest = s.cau.allstopRequest ∧
    (noteStaged source s).cau.generator = s.cau.generator ∧ (noteStaged source s).asu = s.asu ∧ (noteStaged source s).bpl = s.bpl ∧
    (noteStaged source s).odu.rsq = s.odu.rsq ∧ (noteStaged source s).odu.rbq = s.odu.rbq ∧
    (noteStaged source s).odu.callNumber = s.odu.callNumber ∧ (noteStaged source s).odu.nextSequence = s.odu.nextSequence ∧
    (noteStaged source s).odu.finishedSlots = s.odu.finishedSlots ∧ (noteStaged source s).tmu = s.tmu ∧
    (noteStaged source s).stu = s.stu ∧ (noteStaged source s).tpt = s.tpt ∧ (noteStaged source s).pins = s.pins ∧
    (noteStaged source s).pending = s.pending := by
  generalize hb : noteStaged source s = t
  unfold noteStaged at hb
  (repeat' split at hb) <;> subst hb <;> simp

@[simp] theorem stage_frame (source : Source) (s : State) :
    (stage source s).time = s.time ∧ (stage source s).cfl = s.cfl ∧ (stage source s).rxc = s.rxc ∧
    (stage source s).cau.sense = s.cau.sense ∧ (stage source s).cau.occupancy = s.cau.occupancy ∧
    (stage source s).cau.average = s.cau.average ∧ (stage source s).cau.crowded = s.cau.crowded ∧
    (stage source s).cau.crowdedHeard = s.cau.crowdedHeard ∧ (stage source s).cau.rate = s.cau.rate ∧
    (stage source s).cau.paceSamples = s.cau.paceSamples ∧ (stage source s).cau.onAir = s.cau.onAir ∧
    (stage source s).cau.gateOpen = s.cau.gateOpen ∧ (stage source s).cau.allstopRequest = s.cau.allstopRequest ∧
    (stage source s).asu = s.asu ∧ (stage source s).bpl = s.bpl ∧ (stage source s).odu.rsq = s.odu.rsq ∧
    (stage source s).odu.rbq = s.odu.rbq ∧ (stage source s).odu.callNumber = s.odu.callNumber ∧
    (stage source s).odu.nextSequence = s.odu.nextSequence ∧ (stage source s).odu.finishedSlots = s.odu.finishedSlots ∧
    (stage source s).tmu = s.tmu ∧ (stage source s).stu = s.stu ∧ (stage source s).tpt = s.tpt ∧ (stage source s).pins = s.pins ∧
    (stage source s).pending = s.pending := by
  generalize hb : stage source s = t
  unfold stage at hb
  (repeat' (first | split at hb | (dsimp only at hb; split at hb))) <;> subst hb <;> simp

@[simp] theorem noteChosen_frame (source : Source) (s : State) :
    (noteChosen source s).time = s.time ∧ (noteChosen source s).cfl = s.cfl ∧ (noteChosen source s).rxc = s.rxc ∧
    (noteChosen source s).cau.sense = s.cau.sense ∧ (noteChosen source s).cau.occupancy = s.cau.occupancy ∧
    (noteChosen source s).cau.average = s.cau.average ∧ (noteChosen source s).cau.crowded = s.cau.crowded ∧
    (noteChosen source s).cau.crowdedHeard = s.cau.crowdedHeard ∧ (noteChosen source s).cau.rate = s.cau.rate ∧
    (noteChosen source s).cau.paceSamples = s.cau.paceSamples ∧ (noteChosen source s).cau.onAir = s.cau.onAir ∧
    (noteChosen source s).cau.gateOpen = s.cau.gateOpen ∧ (noteChosen source s).cau.generator = s.cau.generator ∧
    (noteChosen source s).asu = s.asu ∧ (noteChosen source s).bpl = s.bpl ∧ (noteChosen source s).odu = s.odu ∧
    (noteChosen source s).tmu = s.tmu ∧ (noteChosen source s).stu = s.stu ∧ (noteChosen source s).tpt = s.tpt ∧
    (noteChosen source s).pins = s.pins ∧ (noteChosen source s).pending = s.pending := by
  generalize hb : noteChosen source s = t
  unfold noteChosen at hb
  (repeat' split at hb) <;> subst hb <;> simp

@[simp] theorem arbitrate_frame (s : State) :
    (arbitrate s).time = s.time ∧ (arbitrate s).cfl = s.cfl ∧ (arbitrate s).rxc = s.rxc ∧ (arbitrate s).cau.sense = s.cau.sense ∧
    (arbitrate s).cau.occupancy = s.cau.occupancy ∧ (arbitrate s).cau.average = s.cau.average ∧
    (arbitrate s).cau.crowded = s.cau.crowded ∧ (arbitrate s).cau.crowdedHeard = s.cau.crowdedHeard ∧
    (arbitrate s).cau.rate = s.cau.rate ∧ (arbitrate s).cau.paceSamples = s.cau.paceSamples ∧ (arbitrate s).cau.onAir = s.cau.onAir ∧
    (arbitrate s).cau.gateOpen = s.cau.gateOpen ∧ (arbitrate s).asu = s.asu ∧ (arbitrate s).bpl = s.bpl ∧
    (arbitrate s).odu.rsq = s.odu.rsq ∧ (arbitrate s).odu.rbq = s.odu.rbq ∧ (arbitrate s).odu.callNumber = s.odu.callNumber ∧
    (arbitrate s).odu.nextSequence = s.odu.nextSequence ∧ (arbitrate s).odu.finishedSlots = s.odu.finishedSlots ∧
    (arbitrate s).tmu = s.tmu ∧ (arbitrate s).stu = s.stu ∧ (arbitrate s).tpt = s.tpt ∧ (arbitrate s).pins = s.pins ∧
    (arbitrate s).pending = s.pending := by
  generalize hb : arbitrate s = t
  unfold arbitrate at hb
  (repeat' split at hb) <;> subst hb <;> simp

@[simp] theorem leaveSource_frame (source : Source) (s : State) :
    (leaveSource source s).time = s.time ∧ (leaveSource source s).cfl = s.cfl ∧ (leaveSource source s).rxc = s.rxc ∧
    (leaveSource source s).cau = s.cau ∧ (leaveSource source s).asu = s.asu ∧ (leaveSource source s).bpl = s.bpl ∧
    (leaveSource source s).odu.rsq = s.odu.rsq ∧ (leaveSource source s).odu.callNumber = s.odu.callNumber ∧
    (leaveSource source s).odu.nextSequence = s.odu.nextSequence ∧ (leaveSource source s).odu.finishedSlots = s.odu.finishedSlots ∧
    (leaveSource source s).tmu.attached = s.tmu.attached ∧ (leaveSource source s).tmu.leavePending = s.tmu.leavePending ∧
    (leaveSource source s).tmu.homeTeam = s.tmu.homeTeam ∧ (leaveSource source s).tmu.peers = s.tmu.peers ∧
    (leaveSource source s).tmu.control = s.tmu.control ∧ (leaveSource source s).stu = s.stu ∧ (leaveSource source s).tpt = s.tpt ∧
    (leaveSource source s).pins = s.pins ∧ (leaveSource source s).pending = s.pending := by
  generalize hb : leaveSource source s = t
  unfold leaveSource at hb
  (repeat' split at hb) <;> subst hb <;> simp

@[simp] theorem goOnAir_frame (s : State) :
    (goOnAir s).time = s.time ∧ (goOnAir s).cfl = s.cfl ∧ (goOnAir s).rxc.counts = s.rxc.counts ∧
    (goOnAir s).cau.sense = s.cau.sense ∧ (goOnAir s).cau.occupancy = s.cau.occupancy ∧ (goOnAir s).cau.average = s.cau.average ∧
    (goOnAir s).cau.crowded = s.cau.crowded ∧ (goOnAir s).cau.crowdedHeard = s.cau.crowdedHeard ∧ (goOnAir s).cau.rate = s.cau.rate ∧
    (goOnAir s).cau.paceSamples = s.cau.paceSamples ∧ (goOnAir s).cau.gateOpen = s.cau.gateOpen ∧
    (goOnAir s).cau.allstopRequest = s.cau.allstopRequest ∧ (goOnAir s).cau.generator = s.cau.generator ∧ (goOnAir s).asu = s.asu ∧
    (goOnAir s).bpl = s.bpl ∧ (goOnAir s).odu.rsq = s.odu.rsq ∧ (goOnAir s).odu.callNumber = s.odu.callNumber ∧
    (goOnAir s).odu.nextSequence = s.odu.nextSequence ∧ (goOnAir s).odu.finishedSlots = s.odu.finishedSlots ∧
    (goOnAir s).tmu.attached = s.tmu.attached ∧ (goOnAir s).tmu.leavePending = s.tmu.leavePending ∧
    (goOnAir s).tmu.homeTeam = s.tmu.homeTeam ∧ (goOnAir s).tmu.peers = s.tmu.peers ∧ (goOnAir s).tmu.control = s.tmu.control ∧
    (goOnAir s).stu = s.stu ∧ (goOnAir s).tpt = s.tpt ∧ (goOnAir s).pins = s.pins ∧ (goOnAir s).pending = s.pending := by
  generalize hb : goOnAir s = t
  unfold goOnAir at hb
  (repeat' split at hb) <;> subst hb <;> simp

@[simp] theorem giveBack_frame (source : Source) (s : State) :
    (giveBack source s).time = s.time ∧ (giveBack source s).cfl = s.cfl ∧ (giveBack source s).rxc = s.rxc ∧
    (giveBack source s).cau.sense = s.cau.sense ∧ (giveBack source s).cau.occupancy = s.cau.occupancy ∧
    (giveBack source s).cau.average = s.cau.average ∧ (giveBack source s).cau.crowded = s.cau.crowded ∧
    (giveBack source s).cau.crowdedHeard = s.cau.crowdedHeard ∧ (giveBack source s).cau.rate = s.cau.rate ∧
    (giveBack source s).cau.paceSamples = s.cau.paceSamples ∧ (giveBack source s).cau.onAir = s.cau.onAir ∧
    (giveBack source s).cau.gateOpen = s.cau.gateOpen ∧ (giveBack source s).cau.allstopRequest = s.cau.allstopRequest ∧
    (giveBack source s).cau.generator = s.cau.generator ∧ (giveBack source s).asu = s.asu ∧ (giveBack source s).bpl = s.bpl ∧
    (giveBack source s).odu.rsq = s.odu.rsq ∧ (giveBack source s).odu.rbq = s.odu.rbq ∧
    (giveBack source s).odu.callNumber = s.odu.callNumber ∧ (giveBack source s).odu.nextSequence = s.odu.nextSequence ∧
    (giveBack source s).odu.finishedSlots = s.odu.finishedSlots ∧ (giveBack source s).tmu = s.tmu ∧ (giveBack source s).stu = s.stu ∧
    (giveBack source s).tpt = s.tpt ∧ (giveBack source s).pins = s.pins ∧ (giveBack source s).pending = s.pending := by
  generalize hb : giveBack source s = t
  unfold giveBack at hb
  (repeat' split at hb) <;> subst hb <;> simp

@[simp] theorem emptyStaging_frame (s : State) :
    (emptyStaging s).time = s.time ∧ (emptyStaging s).cfl = s.cfl ∧ (emptyStaging s).rxc = s.rxc ∧
    (emptyStaging s).cau.sense = s.cau.sense ∧ (emptyStaging s).cau.occupancy = s.cau.occupancy ∧
    (emptyStaging s).cau.average = s.cau.average ∧ (emptyStaging s).cau.crowded = s.cau.crowded ∧
    (emptyStaging s).cau.crowdedHeard = s.cau.crowdedHeard ∧ (emptyStaging s).cau.rate = s.cau.rate ∧
    (emptyStaging s).cau.paceSamples = s.cau.paceSamples ∧ (emptyStaging s).cau.onAir = s.cau.onAir ∧
    (emptyStaging s).cau.gateOpen = s.cau.gateOpen ∧ (emptyStaging s).cau.allstopRequest = s.cau.allstopRequest ∧
    (emptyStaging s).cau.generator = s.cau.generator ∧ (emptyStaging s).asu = s.asu ∧ (emptyStaging s).bpl = s.bpl ∧
    (emptyStaging s).odu = s.odu ∧ (emptyStaging s).tmu = s.tmu ∧ (emptyStaging s).stu = s.stu ∧ (emptyStaging s).tpt = s.tpt ∧
    (emptyStaging s).pins = s.pins ∧ (emptyStaging s).pending = s.pending := by
  generalize hb : emptyStaging s = t
  unfold emptyStaging at hb
  (repeat' (first | split at hb | (dsimp only at hb; split at hb))) <;> subst hb <;> simp

@[simp] theorem withdraw_frame (meant : Source → Bool) (s : State) :
    (withdraw meant s).time = s.time ∧ (withdraw meant s).cfl = s.cfl ∧ (withdraw meant s).rxc = s.rxc ∧
    (withdraw meant s).cau.sense = s.cau.sense ∧ (withdraw meant s).cau.occupancy = s.cau.occupancy ∧
    (withdraw meant s).cau.average = s.cau.average ∧ (withdraw meant s).cau.crowded = s.cau.crowded ∧
    (withdraw meant s).cau.crowdedHeard = s.cau.crowdedHeard ∧ (withdraw meant s).cau.rate = s.cau.rate ∧
    (withdraw meant s).cau.paceSamples = s.cau.paceSamples ∧ (withdraw meant s).cau.onAir = s.cau.onAir ∧
    (withdraw meant s).cau.gateOpen = s.cau.gateOpen ∧ (withdraw meant s).cau.allstopRequest = s.cau.allstopRequest ∧
    (withdraw meant s).cau.generator = s.cau.generator ∧ (withdraw meant s).asu = s.asu ∧ (withdraw meant s).bpl = s.bpl ∧
    (withdraw meant s).odu.rsq = s.odu.rsq ∧ (withdraw meant s).odu.rbq = s.odu.rbq ∧
    (withdraw meant s).odu.callNumber = s.odu.callNumber ∧ (withdraw meant s).odu.nextSequence = s.odu.nextSequence ∧
    (withdraw meant s).odu.finishedSlots = s.odu.finishedSlots ∧ (withdraw meant s).tmu = s.tmu ∧ (withdraw meant s).stu = s.stu ∧
    (withdraw meant s).tpt = s.tpt ∧ (withdraw meant s).pins = s.pins ∧ (withdraw meant s).pending = s.pending := by
  generalize hb : withdraw meant s = t
  unfold withdraw at hb
  (repeat' split at hb) <;> subst hb <;> simp

@[simp] theorem displace_frame (old : Staged) (team : Team) (s : State) :
    (displace old team s).time = s.time ∧ (displace old team s).cfl = s.cfl ∧ (displace old team s).rxc.counts = s.rxc.counts ∧
    (displace old team s).cau.sense = s.cau.sense ∧ (displace old team s).cau.occupancy = s.cau.occupancy ∧
    (displace old team s).cau.average = s.cau.average ∧ (displace old team s).cau.crowded = s.cau.crowded ∧
    (displace old team s).cau.crowdedHeard = s.cau.crowdedHeard ∧ (displace old team s).cau.rate = s.cau.rate ∧
    (displace old team s).cau.paceSamples = s.cau.paceSamples ∧ (displace old team s).cau.gateOpen = s.cau.gateOpen ∧
    (displace old team s).cau.allstopRequest = s.cau.allstopRequest ∧ (displace old team s).asu = s.asu ∧
    (displace old team s).bpl = s.bpl ∧ (displace old team s).odu.rsq = s.odu.rsq ∧
    (displace old team s).odu.callNumber = s.odu.callNumber ∧ (displace old team s).odu.nextSequence = s.odu.nextSequence ∧
    (displace old team s).odu.finishedSlots = s.odu.finishedSlots ∧ (displace old team s).tmu.attached = s.tmu.attached ∧
    (displace old team s).tmu.leavePending = s.tmu.leavePending ∧ (displace old team s).tmu.homeTeam = s.tmu.homeTeam ∧
    (displace old team s).tmu.peers = s.tmu.peers ∧ (displace old team s).tmu.control = s.tmu.control ∧
    (displace old team s).stu = s.stu ∧ (displace old team s).tpt = s.tpt ∧ (displace old team s).pins = s.pins ∧
    (displace old team s).pending = s.pending := by
  generalize hb : displace old team s = t
  unfold displace at hb
  (repeat' (first | split at hb | (dsimp only at hb; split at hb))) <;> subst hb <;> simp

@[simp] theorem requestAllstop_frame (team : Team) (s : State) :
    (requestAllstop team s).time = s.time ∧ (requestAllstop team s).cfl = s.cfl ∧ (requestAllstop team s).rxc.counts = s.rxc.counts ∧
    (requestAllstop team s).cau.sense = s.cau.sense ∧ (requestAllstop team s).cau.occupancy = s.cau.occupancy ∧
    (requestAllstop team s).cau.average = s.cau.average ∧ (requestAllstop team s).cau.crowded = s.cau.crowded ∧
    (requestAllstop team s).cau.crowdedHeard = s.cau.crowdedHeard ∧ (requestAllstop team s).cau.rate = s.cau.rate ∧
    (requestAllstop team s).cau.paceSamples = s.cau.paceSamples ∧ (requestAllstop team s).cau.gateOpen = s.cau.gateOpen ∧
    (requestAllstop team s).asu = s.asu ∧ (requestAllstop team s).bpl = s.bpl ∧ (requestAllstop team s).odu.rsq = s.odu.rsq ∧
    (requestAllstop team s).odu.callNumber = s.odu.callNumber ∧ (requestAllstop team s).odu.nextSequence = s.odu.nextSequence ∧
    (requestAllstop team s).odu.finishedSlots = s.odu.finishedSlots ∧ (requestAllstop team s).tmu.attached = s.tmu.attached ∧
    (requestAllstop team s).tmu.leavePending = s.tmu.leavePending ∧ (requestAllstop team s).tmu.homeTeam = s.tmu.homeTeam ∧
    (requestAllstop team s).tmu.peers = s.tmu.peers ∧ (requestAllstop team s).tmu.control = s.tmu.control ∧
    (requestAllstop team s).stu = s.stu ∧ (requestAllstop team s).tpt = s.tpt ∧ (requestAllstop team s).pins = s.pins ∧
    (requestAllstop team s).pending = s.pending := by
  generalize hb : requestAllstop team s = t
  unfold requestAllstop at hb
  (repeat' split at hb) <;> subst hb <;> simp

/-! #### Orders -/

@[simp] theorem promote_frame (s : State) :
    (promote s).time = s.time ∧ (promote s).cfl = s.cfl ∧ (promote s).rxc = s.rxc ∧ (promote s).cau = s.cau ∧
    (promote s).asu = s.asu ∧ (promote s).bpl = s.bpl ∧ (promote s).odu.rsq = s.odu.rsq ∧ (promote s).odu.rbq = s.odu.rbq ∧
    (promote s).odu.callNumber = s.odu.callNumber ∧ (promote s).odu.nextSequence = s.odu.nextSequence ∧
    (promote s).odu.finishedSlots = s.odu.finishedSlots ∧ (promote s).tmu = s.tmu ∧ (promote s).stu = s.stu ∧
    (promote s).tpt = s.tpt ∧ (promote s).pins = s.pins ∧ (promote s).pending = s.pending := by
  generalize hb : promote s = t
  unfold promote at hb
  (repeat' split at hb) <;> subst hb <;> simp

@[simp] theorem offerResult_frame (slot : Nat) (o : Order) (s : State) :
    (offerResult slot o s).time = s.time ∧ (offerResult slot o s).cfl = s.cfl ∧ (offerResult slot o s).rxc = s.rxc ∧
    (offerResult slot o s).cau = s.cau ∧ (offerResult slot o s).asu = s.asu ∧ (offerResult slot o s).bpl = s.bpl ∧
    (offerResult slot o s).odu.rbq = s.odu.rbq ∧ (offerResult slot o s).odu.callNumber = s.odu.callNumber ∧
    (offerResult slot o s).odu.nextSequence = s.odu.nextSequence ∧ (offerResult slot o s).tmu = s.tmu ∧
    (offerResult slot o s).stu = s.stu ∧ (offerResult slot o s).tpt = s.tpt ∧ (offerResult slot o s).pins = s.pins ∧
    (offerResult slot o s).pending = s.pending := by
  generalize hb : offerResult slot o s = t
  unfold offerResult at hb
  (repeat' split at hb) <;> subst hb <;> simp

@[simp] theorem finishOrder_frame (slot : Nat) (outcome : OrderOutcome) (s : State) :
    (finishOrder slot outcome s).time = s.time ∧ (finishOrder slot outcome s).cfl = s.cfl ∧
    (finishOrder slot outcome s).rxc = s.rxc ∧ (finishOrder slot outcome s).cau.sense = s.cau.sense ∧
    (finishOrder slot outcome s).cau.occupancy = s.cau.occupancy ∧ (finishOrder slot outcome s).cau.average = s.cau.average ∧
    (finishOrder slot outcome s).cau.crowded = s.cau.crowded ∧ (finishOrder slot outcome s).cau.crowdedHeard = s.cau.crowdedHeard ∧
    (finishOrder slot outcome s).cau.rate = s.cau.rate ∧ (finishOrder slot outcome s).cau.paceSamples = s.cau.paceSamples ∧
    (finishOrder slot outcome s).cau.onAir = s.cau.onAir ∧ (finishOrder slot outcome s).cau.gateOpen = s.cau.gateOpen ∧
    (finishOrder slot outcome s).cau.allstopRequest = s.cau.allstopRequest ∧
    (finishOrder slot outcome s).cau.generator = s.cau.generator ∧ (finishOrder slot outcome s).asu = s.asu ∧
    (finishOrder slot outcome s).bpl.held = s.bpl.held ∧ (finishOrder slot outcome s).bpl.memory = s.bpl.memory ∧
    (finishOrder slot outcome s).odu.rbq = s.odu.rbq ∧ (finishOrder slot outcome s).odu.callNumber = s.odu.callNumber ∧
    (finishOrder slot outcome s).odu.nextSequence = s.odu.nextSequence ∧ (finishOrder slot outcome s).tmu = s.tmu ∧
    (finishOrder slot outcome s).stu = s.stu ∧ (finishOrder slot outcome s).tpt = s.tpt ∧
    (finishOrder slot outcome s).pins = s.pins ∧ (finishOrder slot outcome s).pending = s.pending := by
  generalize hb : finishOrder slot outcome s = t
  unfold finishOrder at hb
  (repeat' split at hb) <;> subst hb <;> simp

@[simp] theorem endAttempt_frame (slot : Nat) (o : Order) (s : State) :
    (endAttempt slot o s).time = s.time ∧ (endAttempt slot o s).cfl = s.cfl ∧ (endAttempt slot o s).rxc = s.rxc ∧
    (endAttempt slot o s).cau.sense = s.cau.sense ∧ (endAttempt slot o s).cau.occupancy = s.cau.occupancy ∧
    (endAttempt slot o s).cau.average = s.cau.average ∧ (endAttempt slot o s).cau.crowded = s.cau.crowded ∧
    (endAttempt slot o s).cau.crowdedHeard = s.cau.crowdedHeard ∧ (endAttempt slot o s).cau.rate = s.cau.rate ∧
    (endAttempt slot o s).cau.paceSamples = s.cau.paceSamples ∧ (endAttempt slot o s).cau.onAir = s.cau.onAir ∧
    (endAttempt slot o s).cau.gateOpen = s.cau.gateOpen ∧ (endAttempt slot o s).cau.allstopRequest = s.cau.allstopRequest ∧
    (endAttempt slot o s).cau.generator = s.cau.generator ∧ (endAttempt slot o s).asu = s.asu ∧
    (endAttempt slot o s).bpl.held = s.bpl.held ∧ (endAttempt slot o s).bpl.memory = s.bpl.memory ∧
    (endAttempt slot o s).odu.rbq = s.odu.rbq ∧ (endAttempt slot o s).odu.callNumber = s.odu.callNumber ∧
    (endAttempt slot o s).odu.nextSequence = s.odu.nextSequence ∧ (endAttempt slot o s).tmu = s.tmu ∧
    (endAttempt slot o s).stu = s.stu ∧ (endAttempt slot o s).tpt = s.tpt ∧ (endAttempt slot o s).pins = s.pins ∧
    (endAttempt slot o s).pending = s.pending := by
  generalize hb : endAttempt slot o s = t
  unfold endAttempt at hb
  (repeat' split at hb) <;> subst hb <;> simp

@[simp] theorem fragmentCompleted_frame (slot index : Nat) (s : State) :
    (fragmentCompleted slot index s).time = s.time ∧ (fragmentCompleted slot index s).cfl = s.cfl ∧
    (fragmentCompleted slot index s).rxc = s.rxc ∧ (fragmentCompleted slot index s).cau.sense = s.cau.sense ∧
    (fragmentCompleted slot index s).cau.occupancy = s.cau.occupancy ∧ (fragmentCompleted slot index s).cau.average = s.cau.average ∧
    (fragmentCompleted slot index s).cau.crowded = s.cau.crowded ∧
    (fragmentCompleted slot index s).cau.crowdedHeard = s.cau.crowdedHeard ∧ (fragmentCompleted slot index s).cau.rate = s.cau.rate ∧
    (fragmentCompleted slot index s).cau.paceSamples = s.cau.paceSamples ∧ (fragmentCompleted slot index s).cau.onAir = s.cau.onAir ∧
    (fragmentCompleted slot index s).cau.gateOpen = s.cau.gateOpen ∧
    (fragmentCompleted slot index s).cau.allstopRequest = s.cau.allstopRequest ∧
    (fragmentCompleted slot index s).cau.generator = s.cau.generator ∧ (fragmentCompleted slot index s).asu = s.asu ∧
    (fragmentCompleted slot index s).bpl.held = s.bpl.held ∧ (fragmentCompleted slot index s).bpl.memory = s.bpl.memory ∧
    (fragmentCompleted slot index s).odu.rbq = s.odu.rbq ∧ (fragmentCompleted slot index s).odu.callNumber = s.odu.callNumber ∧
    (fragmentCompleted slot index s).odu.nextSequence = s.odu.nextSequence ∧ (fragmentCompleted slot index s).tmu = s.tmu ∧
    (fragmentCompleted slot index s).stu = s.stu ∧ (fragmentCompleted slot index s).tpt = s.tpt ∧
    (fragmentCompleted slot index s).pins = s.pins ∧ (fragmentCompleted slot index s).pending = s.pending := by
  generalize hb : fragmentCompleted slot index s = t
  unfold fragmentCompleted at hb
  (repeat' (first | split at hb | (dsimp only at hb; split at hb))) <;> subst hb <;> simp

@[simp] theorem waitExpired_frame (slot : Nat) (s : State) :
    (waitExpired slot s).time = s.time ∧ (waitExpired slot s).cfl = s.cfl ∧ (waitExpired slot s).rxc = s.rxc ∧
    (waitExpired slot s).cau.sense = s.cau.sense ∧ (waitExpired slot s).cau.occupancy = s.cau.occupancy ∧
    (waitExpired slot s).cau.average = s.cau.average ∧ (waitExpired slot s).cau.crowded = s.cau.crowded ∧
    (waitExpired slot s).cau.crowdedHeard = s.cau.crowdedHeard ∧ (waitExpired slot s).cau.paceSamples = s.cau.paceSamples ∧
    (waitExpired slot s).cau.onAir = s.cau.onAir ∧ (waitExpired slot s).cau.gateOpen = s.cau.gateOpen ∧
    (waitExpired slot s).cau.allstopRequest = s.cau.allstopRequest ∧ (waitExpired slot s).cau.generator = s.cau.generator ∧
    (waitExpired slot s).asu = s.asu ∧ (waitExpired slot s).bpl.held = s.bpl.held ∧ (waitExpired slot s).bpl.memory = s.bpl.memory ∧
    (waitExpired slot s).odu.rbq = s.odu.rbq ∧ (waitExpired slot s).odu.callNumber = s.odu.callNumber ∧
    (waitExpired slot s).odu.nextSequence = s.odu.nextSequence ∧ (waitExpired slot s).tmu = s.tmu ∧
    (waitExpired slot s).stu = s.stu ∧ (waitExpired slot s).tpt = s.tpt ∧ (waitExpired slot s).pins = s.pins ∧
    (waitExpired slot s).pending = s.pending := by
  generalize hb : waitExpired slot s = t
  unfold waitExpired at hb
  (repeat' split at hb) <;> subst hb <;> simp

@[simp] theorem memberAnswered_frame (slot : Nat) (o : Order) (station : Station) (v : Verdict) (s : State) :
    (memberAnswered slot o station v s).time = s.time ∧ (memberAnswered slot o station v s).cfl = s.cfl ∧
    (memberAnswered slot o station v s).rxc = s.rxc ∧ (memberAnswered slot o station v s).cau.sense = s.cau.sense ∧
    (memberAnswered slot o station v s).cau.occupancy = s.cau.occupancy ∧
    (memberAnswered slot o station v s).cau.average = s.cau.average ∧
    (memberAnswered slot o station v s).cau.crowded = s.cau.crowded ∧
    (memberAnswered slot o station v s).cau.crowdedHeard = s.cau.crowdedHeard ∧
    (memberAnswered slot o station v s).cau.paceSamples = s.cau.paceSamples ∧
    (memberAnswered slot o station v s).cau.onAir = s.cau.onAir ∧ (memberAnswered slot o station v s).cau.gateOpen = s.cau.gateOpen ∧
    (memberAnswered slot o station v s).cau.allstopRequest = s.cau.allstopRequest ∧
    (memberAnswered slot o station v s).cau.generator = s.cau.generator ∧ (memberAnswered slot o station v s).asu = s.asu ∧
    (memberAnswered slot o station v s).bpl.held = s.bpl.held ∧ (memberAnswered slot o station v s).bpl.memory = s.bpl.memory ∧
    (memberAnswered slot o station v s).odu.rbq = s.odu.rbq ∧ (memberAnswered slot o station v s).odu.callNumber = s.odu.callNumber ∧
    (memberAnswered slot o station v s).odu.nextSequence = s.odu.nextSequence ∧ (memberAnswered slot o station v s).tmu = s.tmu ∧
    (memberAnswered slot o station v s).stu = s.stu ∧ (memberAnswered slot o station v s).tpt = s.tpt ∧
    (memberAnswered slot o station v s).pins = s.pins ∧ (memberAnswered slot o station v s).pending = s.pending := by
  generalize hb : memberAnswered slot o station v s = t
  unfold memberAnswered at hb
  (repeat' (first | split at hb | (dsimp only at hb; split at hb))) <;> subst hb <;> simp

@[simp] theorem readbackArrived_frame (b : Burst) (s : State) :
    (readbackArrived b s).time = s.time ∧ (readbackArrived b s).cfl = s.cfl ∧ (readbackArrived b s).rxc.reception = s.rxc.reception ∧
    (readbackArrived b s).cau.sense = s.cau.sense ∧ (readbackArrived b s).cau.occupancy = s.cau.occupancy ∧
    (readbackArrived b s).cau.average = s.cau.average ∧ (readbackArrived b s).cau.crowded = s.cau.crowded ∧
    (readbackArrived b s).cau.crowdedHeard = s.cau.crowdedHeard ∧ (readbackArrived b s).cau.paceSamples = s.cau.paceSamples ∧
    (readbackArrived b s).cau.onAir = s.cau.onAir ∧ (readbackArrived b s).cau.gateOpen = s.cau.gateOpen ∧
    (readbackArrived b s).cau.allstopRequest = s.cau.allstopRequest ∧ (readbackArrived b s).cau.generator = s.cau.generator ∧
    (readbackArrived b s).asu = s.asu ∧ (readbackArrived b s).bpl.held = s.bpl.held ∧
    (readbackArrived b s).bpl.memory = s.bpl.memory ∧ (readbackArrived b s).odu.rbq = s.odu.rbq ∧
    (readbackArrived b s).odu.callNumber = s.odu.callNumber ∧ (readbackArrived b s).odu.nextSequence = s.odu.nextSequence ∧
    (readbackArrived b s).tmu = s.tmu ∧ (readbackArrived b s).stu = s.stu ∧ (readbackArrived b s).tpt = s.tpt ∧
    (readbackArrived b s).pins = s.pins ∧ (readbackArrived b s).pending = s.pending := by
  generalize hb : readbackArrived b s = t
  unfold readbackArrived at hb
  (repeat' split at hb) <;> subst hb <;> simp

@[simp] theorem cancelOrder_frame (slot : Nat) (o : Order) (s : State) :
    (cancelOrder slot o s).time = s.time ∧ (cancelOrder slot o s).cfl = s.cfl ∧ (cancelOrder slot o s).rxc = s.rxc ∧
    (cancelOrder slot o s).cau.sense = s.cau.sense ∧ (cancelOrder slot o s).cau.occupancy = s.cau.occupancy ∧
    (cancelOrder slot o s).cau.average = s.cau.average ∧ (cancelOrder slot o s).cau.crowded = s.cau.crowded ∧
    (cancelOrder slot o s).cau.crowdedHeard = s.cau.crowdedHeard ∧ (cancelOrder slot o s).cau.rate = s.cau.rate ∧
    (cancelOrder slot o s).cau.paceSamples = s.cau.paceSamples ∧ (cancelOrder slot o s).cau.onAir = s.cau.onAir ∧
    (cancelOrder slot o s).cau.gateOpen = s.cau.gateOpen ∧ (cancelOrder slot o s).cau.allstopRequest = s.cau.allstopRequest ∧
    (cancelOrder slot o s).cau.generator = s.cau.generator ∧ (cancelOrder slot o s).asu = s.asu ∧
    (cancelOrder slot o s).bpl.held = s.bpl.held ∧ (cancelOrder slot o s).bpl.memory = s.bpl.memory ∧
    (cancelOrder slot o s).odu.rbq = s.odu.rbq ∧ (cancelOrder slot o s).odu.callNumber = s.odu.callNumber ∧
    (cancelOrder slot o s).odu.nextSequence = s.odu.nextSequence ∧ (cancelOrder slot o s).tmu = s.tmu ∧
    (cancelOrder slot o s).stu = s.stu ∧ (cancelOrder slot o s).tpt = s.tpt ∧ (cancelOrder slot o s).pins = s.pins ∧
    (cancelOrder slot o s).pending = s.pending := by
  generalize hb : cancelOrder slot o s = t
  unfold cancelOrder at hb
  (repeat' split at hb) <;> subst hb <;> simp

@[simp] theorem moveHeldResult_frame (s : State) :
    (moveHeldResult s).time = s.time ∧ (moveHeldResult s).cfl = s.cfl ∧ (moveHeldResult s).rxc = s.rxc ∧
    (moveHeldResult s).cau = s.cau ∧ (moveHeldResult s).asu = s.asu ∧ (moveHeldResult s).bpl = s.bpl ∧
    (moveHeldResult s).odu.rbq = s.odu.rbq ∧ (moveHeldResult s).odu.callNumber = s.odu.callNumber ∧
    (moveHeldResult s).odu.nextSequence = s.odu.nextSequence ∧ (moveHeldResult s).tmu = s.tmu ∧ (moveHeldResult s).stu = s.stu ∧
    (moveHeldResult s).tpt = s.tpt ∧ (moveHeldResult s).pins = s.pins ∧ (moveHeldResult s).pending = s.pending := by
  generalize hb : moveHeldResult s = t
  unfold moveHeldResult at hb
  (repeat' (first | split at hb | (dsimp only at hb; split at hb))) <;> subst hb <;> simp

@[simp] theorem acceptOrder_frame (slot : Nat) (sub : Submission) (s : State) :
    (acceptOrder slot sub s).time = s.time ∧ (acceptOrder slot sub s).cfl = s.cfl ∧ (acceptOrder slot sub s).rxc = s.rxc ∧
    (acceptOrder slot sub s).cau = s.cau ∧ (acceptOrder slot sub s).asu = s.asu ∧ (acceptOrder slot sub s).bpl.held = s.bpl.held ∧
    (acceptOrder slot sub s).odu.rsq = s.odu.rsq ∧ (acceptOrder slot sub s).odu.rbq = s.odu.rbq ∧
    (acceptOrder slot sub s).odu.finishedSlots = s.odu.finishedSlots ∧ (acceptOrder slot sub s).tmu = s.tmu ∧
    (acceptOrder slot sub s).stu = s.stu ∧ (acceptOrder slot sub s).tpt = s.tpt ∧ (acceptOrder slot sub s).pins = s.pins ∧
    (acceptOrder slot sub s).pending = s.pending := by
  generalize hb : acceptOrder slot sub s = t
  unfold acceptOrder at hb
  (repeat' split at hb) <;> subst hb <;> simp

@[simp] theorem offerReadback_frame (e : ReadbackEntry) (s : State) :
    (offerReadback e s).time = s.time ∧ (offerReadback e s).cfl = s.cfl ∧ (offerReadback e s).rxc = s.rxc ∧
    (offerReadback e s).cau = s.cau ∧ (offerReadback e s).asu = s.asu ∧ (offerReadback e s).bpl = s.bpl ∧
    (offerReadback e s).odu.rsq = s.odu.rsq ∧ (offerReadback e s).odu.callNumber = s.odu.callNumber ∧
    (offerReadback e s).odu.nextSequence = s.odu.nextSequence ∧ (offerReadback e s).odu.finishedSlots = s.odu.finishedSlots ∧
    (offerReadback e s).tmu = s.tmu ∧ (offerReadback e s).stu = s.stu ∧ (offerReadback e s).tpt = s.tpt ∧
    (offerReadback e s).pins = s.pins ∧ (offerReadback e s).pending = s.pending := by
  generalize hb : offerReadback e s = t
  unfold offerReadback at hb
  (repeat' split at hb) <;> subst hb <;> simp

@[simp] theorem emptyReadbacks_frame (s : State) :
    (emptyReadbacks s).time = s.time ∧ (emptyReadbacks s).cfl = s.cfl ∧ (emptyReadbacks s).rxc = s.rxc ∧
    (emptyReadbacks s).cau.sense = s.cau.sense ∧ (emptyReadbacks s).cau.occupancy = s.cau.occupancy ∧
    (emptyReadbacks s).cau.average = s.cau.average ∧ (emptyReadbacks s).cau.crowded = s.cau.crowded ∧
    (emptyReadbacks s).cau.crowdedHeard = s.cau.crowdedHeard ∧ (emptyReadbacks s).cau.rate = s.cau.rate ∧
    (emptyReadbacks s).cau.paceSamples = s.cau.paceSamples ∧ (emptyReadbacks s).cau.onAir = s.cau.onAir ∧
    (emptyReadbacks s).cau.gateOpen = s.cau.gateOpen ∧ (emptyReadbacks s).cau.allstopRequest = s.cau.allstopRequest ∧
    (emptyReadbacks s).cau.generator = s.cau.generator ∧ (emptyReadbacks s).asu = s.asu ∧ (emptyReadbacks s).bpl = s.bpl ∧
    (emptyReadbacks s).odu.rsq = s.odu.rsq ∧ (emptyReadbacks s).odu.callNumber = s.odu.callNumber ∧
    (emptyReadbacks s).odu.nextSequence = s.odu.nextSequence ∧ (emptyReadbacks s).odu.finishedSlots = s.odu.finishedSlots ∧
    (emptyReadbacks s).tmu = s.tmu ∧ (emptyReadbacks s).stu = s.stu ∧ (emptyReadbacks s).tpt = s.tpt ∧
    (emptyReadbacks s).pins = s.pins ∧ (emptyReadbacks s).pending = s.pending := by
  generalize hb : emptyReadbacks s = t
  unfold emptyReadbacks at hb
  (repeat' split at hb) <;> subst hb <;> simp

/-! #### Teams -/

@[simp] theorem updatePeer_frame (station : Station) (f : Peer → Peer) (s : State) :
    (updatePeer station f s).time = s.time ∧ (updatePeer station f s).cfl = s.cfl ∧ (updatePeer station f s).rxc = s.rxc ∧
    (updatePeer station f s).cau = s.cau ∧ (updatePeer station f s).asu = s.asu ∧ (updatePeer station f s).bpl = s.bpl ∧
    (updatePeer station f s).odu = s.odu ∧ (updatePeer station f s).tmu.attached = s.tmu.attached ∧
    (updatePeer station f s).tmu.leavePending = s.tmu.leavePending ∧ (updatePeer station f s).tmu.homeTeam = s.tmu.homeTeam ∧
    (updatePeer station f s).tmu.control = s.tmu.control ∧ (updatePeer station f s).tmu.presenceRequest = s.tmu.presenceRequest ∧
    (updatePeer station f s).stu = s.stu ∧ (updatePeer station f s).tpt = s.tpt ∧ (updatePeer station f s).pins = s.pins ∧
    (updatePeer station f s).pending = s.pending := by
  generalize hb : updatePeer station f s = t
  unfold updatePeer at hb
  (repeat' split at hb) <;> subst hb <;> simp

@[simp] theorem removePeer_frame (station : Station) (s : State) :
    (removePeer station s).time = s.time ∧ (removePeer station s).cfl = s.cfl ∧ (removePeer station s).rxc = s.rxc ∧
    (removePeer station s).cau = s.cau ∧ (removePeer station s).asu = s.asu ∧ (removePeer station s).bpl = s.bpl ∧
    (removePeer station s).odu = s.odu ∧ (removePeer station s).tmu.attached = s.tmu.attached ∧
    (removePeer station s).tmu.leavePending = s.tmu.leavePending ∧ (removePeer station s).tmu.homeTeam = s.tmu.homeTeam ∧
    (removePeer station s).tmu.control = s.tmu.control ∧ (removePeer station s).tmu.presenceRequest = s.tmu.presenceRequest ∧
    (removePeer station s).stu = s.stu ∧ (removePeer station s).tpt = s.tpt ∧ (removePeer station s).pins = s.pins ∧
    (removePeer station s).pending = s.pending := by
  generalize hb : removePeer station s = t
  unfold removePeer at hb
  (repeat' split at hb) <;> subst hb <;> simp

@[simp] theorem addPeer_frame (p : Peer) (s : State) :
    (addPeer p s).time = s.time ∧ (addPeer p s).cfl = s.cfl ∧ (addPeer p s).rxc = s.rxc ∧ (addPeer p s).cau = s.cau ∧
    (addPeer p s).asu = s.asu ∧ (addPeer p s).bpl = s.bpl ∧ (addPeer p s).odu = s.odu ∧ (addPeer p s).tmu.attached = s.tmu.attached ∧
    (addPeer p s).tmu.leavePending = s.tmu.leavePending ∧ (addPeer p s).tmu.homeTeam = s.tmu.homeTeam ∧
    (addPeer p s).tmu.control = s.tmu.control ∧ (addPeer p s).tmu.presenceRequest = s.tmu.presenceRequest ∧
    (addPeer p s).stu = s.stu ∧ (addPeer p s).tpt = s.tpt ∧ (addPeer p s).pins = s.pins ∧ (addPeer p s).pending = s.pending := by
  generalize hb : addPeer p s = t
  unfold addPeer at hb
  (repeat' split at hb) <;> subst hb <;> simp

@[simp] theorem enterPeer_frame (b : Burst) (stamp : Stamp) (s : State) :
    (enterPeer b stamp s).time = s.time ∧ (enterPeer b stamp s).cfl = s.cfl ∧ (enterPeer b stamp s).rxc = s.rxc ∧
    (enterPeer b stamp s).cau = s.cau ∧ (enterPeer b stamp s).asu = s.asu ∧ (enterPeer b stamp s).bpl = s.bpl ∧
    (enterPeer b stamp s).odu = s.odu ∧ (enterPeer b stamp s).tmu.attached = s.tmu.attached ∧
    (enterPeer b stamp s).tmu.leavePending = s.tmu.leavePending ∧ (enterPeer b stamp s).tmu.homeTeam = s.tmu.homeTeam ∧
    (enterPeer b stamp s).tmu.control = s.tmu.control ∧ (enterPeer b stamp s).tmu.presenceRequest = s.tmu.presenceRequest ∧
    (enterPeer b stamp s).stu = s.stu ∧ (enterPeer b stamp s).tpt.mask = s.tpt.mask ∧ (enterPeer b stamp s).tpt.range = s.tpt.range ∧
    (enterPeer b stamp s).tpt.port = s.tpt.port ∧ (enterPeer b stamp s).pins = s.pins ∧ (enterPeer b stamp s).pending = s.pending := by
  generalize hb : enterPeer b stamp s = t
  unfold enterPeer at hb
  (repeat' split at hb) <;> subst hb <;> simp

@[simp] theorem makeUnheld_frame (s : State) :
    (makeUnheld s).time = s.time ∧ (makeUnheld s).cfl = s.cfl ∧ (makeUnheld s).rxc = s.rxc ∧ (makeUnheld s).cau = s.cau ∧
    (makeUnheld s).asu = s.asu ∧ (makeUnheld s).bpl = s.bpl ∧ (makeUnheld s).odu = s.odu ∧
    (makeUnheld s).tmu.attached = s.tmu.attached ∧ (makeUnheld s).tmu.leavePending = s.tmu.leavePending ∧
    (makeUnheld s).tmu.homeTeam = s.tmu.homeTeam ∧ (makeUnheld s).tmu.peers = s.tmu.peers ∧
    (makeUnheld s).tmu.presenceRequest = s.tmu.presenceRequest ∧
    (makeUnheld s).stu.hold = s.stu.hold ∧
    (makeUnheld s).stu.repeatCount = s.stu.repeatCount ∧ (makeUnheld s).stu.seriesTeam = s.stu.seriesTeam ∧
    (makeUnheld s).stu.cabInput = s.stu.cabInput ∧ (makeUnheld s).tpt.mask = s.tpt.mask ∧ (makeUnheld s).tpt.range = s.tpt.range ∧
    (makeUnheld s).tpt.port = s.tpt.port ∧ (makeUnheld s).pins = s.pins ∧ (makeUnheld s).pending = s.pending := by
  generalize hb : makeUnheld s = t
  unfold makeUnheld at hb
  (repeat' split at hb) <;> subst hb <;> simp

@[simp] theorem actOnFlag_frame (b : Burst) (s : State) :
    (actOnFlag b s).time = s.time ∧ (actOnFlag b s).cfl = s.cfl ∧ (actOnFlag b s).rxc = s.rxc ∧ (actOnFlag b s).cau = s.cau ∧
    (actOnFlag b s).asu = s.asu ∧ (actOnFlag b s).bpl = s.bpl ∧ (actOnFlag b s).odu = s.odu ∧
    (actOnFlag b s).tmu.attached = s.tmu.attached ∧ (actOnFlag b s).tmu.leavePending = s.tmu.leavePending ∧
    (actOnFlag b s).tmu.homeTeam = s.tmu.homeTeam ∧ (actOnFlag b s).tmu.presenceRequest = s.tmu.presenceRequest ∧
    (actOnFlag b s).stu.hold = s.stu.hold ∧ (actOnFlag b s).stu.repeatCount = s.stu.repeatCount ∧
    (actOnFlag b s).stu.seriesTeam = s.stu.seriesTeam ∧ (actOnFlag b s).stu.cabInput = s.stu.cabInput ∧
    (actOnFlag b s).tpt.mask = s.tpt.mask ∧ (actOnFlag b s).tpt.range = s.tpt.range ∧ (actOnFlag b s).tpt.port = s.tpt.port ∧
    (actOnFlag b s).pins = s.pins ∧ (actOnFlag b s).pending = s.pending := by
  generalize hb : actOnFlag b s = t
  unfold actOnFlag at hb
  (repeat' (first | split at hb | (dsimp only at hb; split at hb))) <;> subst hb <;> simp

@[simp] theorem peerStep_frame (b : Burst) (stamp : Stamp) (s : State) :
    (peerStep b stamp s).time = s.time ∧ (peerStep b stamp s).cfl = s.cfl ∧ (peerStep b stamp s).rxc = s.rxc ∧
    (peerStep b stamp s).cau = s.cau ∧ (peerStep b stamp s).asu = s.asu ∧ (peerStep b stamp s).bpl = s.bpl ∧
    (peerStep b stamp s).odu = s.odu ∧ (peerStep b stamp s).tmu.attached = s.tmu.attached ∧
    (peerStep b stamp s).tmu.leavePending = s.tmu.leavePending ∧ (peerStep b stamp s).tmu.homeTeam = s.tmu.homeTeam ∧
    (peerStep b stamp s).tmu.presenceRequest = s.tmu.presenceRequest ∧
    (peerStep b stamp s).stu.hold = s.stu.hold ∧
    (peerStep b stamp s).stu.repeatCount = s.stu.repeatCount ∧ (peerStep b stamp s).stu.seriesTeam = s.stu.seriesTeam ∧
    (peerStep b stamp s).stu.cabInput = s.stu.cabInput ∧ (peerStep b stamp s).tpt.mask = s.tpt.mask ∧
    (peerStep b stamp s).tpt.range = s.tpt.range ∧ (peerStep b stamp s).tpt.port = s.tpt.port ∧ (peerStep b stamp s).pins = s.pins ∧
    (peerStep b stamp s).pending = s.pending := by
  generalize hb : peerStep b stamp s = t
  unfold peerStep at hb
  (repeat' split at hb) <;> subst hb <;> simp

@[simp] theorem presenceBody_frame (b : Burst) (s : State) :
    (presenceBody b s).time = s.time ∧ (presenceBody b s).cfl = s.cfl ∧ (presenceBody b s).rxc = s.rxc ∧
    (presenceBody b s).cau = s.cau ∧ (presenceBody b s).asu = s.asu ∧ (presenceBody b s).bpl = s.bpl ∧
    (presenceBody b s).odu = s.odu ∧ (presenceBody b s).tmu.attached = s.tmu.attached ∧
    (presenceBody b s).tmu.leavePending = s.tmu.leavePending ∧ (presenceBody b s).tmu.homeTeam = s.tmu.homeTeam ∧
    (presenceBody b s).tmu.control = s.tmu.control ∧ (presenceBody b s).tmu.presenceRequest = s.tmu.presenceRequest ∧
    (presenceBody b s).stu = s.stu ∧ (presenceBody b s).tpt = s.tpt ∧ (presenceBody b s).pins = s.pins ∧
    (presenceBody b s).pending = s.pending := by
  generalize hb : presenceBody b s = t
  unfold presenceBody at hb
  (repeat' split at hb) <;> subst hb <;> simp

@[simp] theorem storeDelivered_frame (station : Station) (d : Delivered) (s : State) :
    (storeDelivered station d s).time = s.time ∧ (storeDelivered station d s).cfl = s.cfl ∧
    (storeDelivered station d s).rxc = s.rxc ∧ (storeDelivered station d s).cau = s.cau ∧ (storeDelivered station d s).asu = s.asu ∧
    (storeDelivered station d s).bpl = s.bpl ∧ (storeDelivered station d s).odu = s.odu ∧
    (storeDelivered station d s).tmu.attached = s.tmu.attached ∧ (storeDelivered station d s).tmu.leavePending = s.tmu.leavePending ∧
    (storeDelivered station d s).tmu.homeTeam = s.tmu.homeTeam ∧ (storeDelivered station d s).tmu.control = s.tmu.control ∧
    (storeDelivered station d s).tmu.presenceRequest = s.tmu.presenceRequest ∧
    (storeDelivered station d s).stu = s.stu ∧
    (storeDelivered station d s).tpt = s.tpt ∧ (storeDelivered station d s).pins = s.pins ∧
    (storeDelivered station d s).pending = s.pending := by
  generalize hb : storeDelivered station d s = t
  unfold storeDelivered at hb
  (repeat' split at hb) <;> subst hb <;> simp

@[simp] theorem requestPresence_frame (flag : PresenceFlag) (s : State) :
    (requestPresence flag s).time = s.time ∧ (requestPresence flag s).cfl = s.cfl ∧ (requestPresence flag s).rxc = s.rxc ∧
    (requestPresence flag s).cau.sense = s.cau.sense ∧ (requestPresence flag s).cau.occupancy = s.cau.occupancy ∧
    (requestPresence flag s).cau.average = s.cau.average ∧ (requestPresence flag s).cau.crowded = s.cau.crowded ∧
    (requestPresence flag s).cau.crowdedHeard = s.cau.crowdedHeard ∧ (requestPresence flag s).cau.rate = s.cau.rate ∧
    (requestPresence flag s).cau.paceSamples = s.cau.paceSamples ∧ (requestPresence flag s).cau.onAir = s.cau.onAir ∧
    (requestPresence flag s).cau.gateOpen = s.cau.gateOpen ∧ (requestPresence flag s).cau.allstopRequest = s.cau.allstopRequest ∧
    (requestPresence flag s).cau.generator = s.cau.generator ∧ (requestPresence flag s).asu = s.asu ∧
    (requestPresence flag s).bpl = s.bpl ∧ (requestPresence flag s).odu.rsq = s.odu.rsq ∧
    (requestPresence flag s).odu.rbq = s.odu.rbq ∧ (requestPresence flag s).odu.callNumber = s.odu.callNumber ∧
    (requestPresence flag s).odu.nextSequence = s.odu.nextSequence ∧
    (requestPresence flag s).odu.finishedSlots = s.odu.finishedSlots ∧ (requestPresence flag s).tmu.attached = s.tmu.attached ∧
    (requestPresence flag s).tmu.leavePending = s.tmu.leavePending ∧ (requestPresence flag s).tmu.homeTeam = s.tmu.homeTeam ∧
    (requestPresence flag s).tmu.peers = s.tmu.peers ∧ (requestPresence flag s).tmu.control = s.tmu.control ∧
    (requestPresence flag s).stu = s.stu ∧ (requestPresence flag s).tpt = s.tpt ∧ (requestPresence flag s).pins = s.pins ∧
    (requestPresence flag s).pending = s.pending := by
  generalize hb : requestPresence flag s = t
  unfold requestPresence at hb
  (repeat' split at hb) <;> subst hb <;> simp

@[simp] theorem clearTeam_frame (s : State) :
    (clearTeam s).time = s.time ∧ (clearTeam s).cfl = s.cfl ∧ (clearTeam s).rxc = s.rxc ∧ (clearTeam s).cau.sense = s.cau.sense ∧
    (clearTeam s).cau.occupancy = s.cau.occupancy ∧ (clearTeam s).cau.average = s.cau.average ∧
    (clearTeam s).cau.crowded = s.cau.crowded ∧ (clearTeam s).cau.crowdedHeard = s.cau.crowdedHeard ∧
    (clearTeam s).cau.rate = s.cau.rate ∧ (clearTeam s).cau.paceSamples = s.cau.paceSamples ∧ (clearTeam s).cau.onAir = s.cau.onAir ∧
    (clearTeam s).cau.gateOpen = s.cau.gateOpen ∧ (clearTeam s).cau.allstopRequest = s.cau.allstopRequest ∧
    (clearTeam s).cau.generator = s.cau.generator ∧ (clearTeam s).asu.rcq = s.asu.rcq ∧ (clearTeam s).asu.exq = s.asu.exq ∧
    (clearTeam s).asu.agingMs = s.asu.agingMs ∧ (clearTeam s).bpl.held = s.bpl.held ∧ (clearTeam s).bpl.memory = s.bpl.memory ∧
    (clearTeam s).odu.rsq = s.odu.rsq ∧ (clearTeam s).odu.callNumber = s.odu.callNumber ∧
    (clearTeam s).odu.nextSequence = s.odu.nextSequence ∧ (clearTeam s).odu.finishedSlots = s.odu.finishedSlots ∧
    (clearTeam s).tmu.attached = s.tmu.attached ∧ (clearTeam s).tmu.leavePending = s.tmu.leavePending ∧
    (clearTeam s).tmu.homeTeam = s.tmu.homeTeam ∧ (clearTeam s).tmu.presenceRequest = s.tmu.presenceRequest ∧
    (clearTeam s).stu.hold = s.stu.hold ∧ (clearTeam s).stu.repeatCount = s.stu.repeatCount ∧
    (clearTeam s).stu.seriesTeam = s.stu.seriesTeam ∧ (clearTeam s).stu.cabInput = s.stu.cabInput ∧
    (clearTeam s).tpt.mask = s.tpt.mask ∧ (clearTeam s).tpt.range = s.tpt.range ∧ (clearTeam s).tpt.port = s.tpt.port ∧
    (clearTeam s).pins = s.pins ∧ (clearTeam s).pending = s.pending := by
  generalize hb : clearTeam s = t
  unfold clearTeam at hb
  (repeat' split at hb) <;> subst hb <;> simp

@[simp] theorem completeLeave_frame (s : State) :
    (completeLeave s).time = s.time ∧ (completeLeave s).cfl = s.cfl ∧ (completeLeave s).rxc = s.rxc ∧
    (completeLeave s).cau.sense = s.cau.sense ∧ (completeLeave s).cau.occupancy = s.cau.occupancy ∧
    (completeLeave s).cau.average = s.cau.average ∧ (completeLeave s).cau.crowded = s.cau.crowded ∧
    (completeLeave s).cau.crowdedHeard = s.cau.crowdedHeard ∧ (completeLeave s).cau.rate = s.cau.rate ∧
    (completeLeave s).cau.paceSamples = s.cau.paceSamples ∧ (completeLeave s).cau.onAir = s.cau.onAir ∧
    (completeLeave s).cau.gateOpen = s.cau.gateOpen ∧ (completeLeave s).cau.allstopRequest = s.cau.allstopRequest ∧
    (completeLeave s).cau.generator = s.cau.generator ∧ (completeLeave s).asu.rcq = s.asu.rcq ∧
    (completeLeave s).asu.exq = s.asu.exq ∧ (completeLeave s).asu.agingMs = s.asu.agingMs ∧ (completeLeave s).bpl.held = s.bpl.held ∧
    (completeLeave s).bpl.memory = s.bpl.memory ∧ (completeLeave s).odu.rsq = s.odu.rsq ∧
    (completeLeave s).odu.callNumber = s.odu.callNumber ∧ (completeLeave s).odu.nextSequence = s.odu.nextSequence ∧
    (completeLeave s).odu.finishedSlots = s.odu.finishedSlots ∧ (completeLeave s).tmu.homeTeam = s.tmu.homeTeam ∧
    (completeLeave s).tmu.presenceRequest = s.tmu.presenceRequest ∧
    (completeLeave s).stu.hold = s.stu.hold ∧
    (completeLeave s).stu.repeatCount = s.stu.repeatCount ∧ (completeLeave s).stu.seriesTeam = s.stu.seriesTeam ∧
    (completeLeave s).stu.cabInput = s.stu.cabInput ∧ (completeLeave s).tpt.mask = s.tpt.mask ∧
    (completeLeave s).tpt.range = s.tpt.range ∧ (completeLeave s).tpt.port = s.tpt.port ∧ (completeLeave s).pins = s.pins ∧
    (completeLeave s).pending = s.pending := by
  generalize hb : completeLeave s = t
  unfold completeLeave at hb
  (repeat' split at hb) <;> subst hb <;> simp

@[simp] theorem presenceCompleted_frame (flag : PresenceFlag) (s : State) :
    (presenceCompleted flag s).time = s.time ∧ (presenceCompleted flag s).cfl = s.cfl ∧ (presenceCompleted flag s).rxc = s.rxc ∧
    (presenceCompleted flag s).cau.sense = s.cau.sense ∧ (presenceCompleted flag s).cau.occupancy = s.cau.occupancy ∧
    (presenceCompleted flag s).cau.average = s.cau.average ∧ (presenceCompleted flag s).cau.crowded = s.cau.crowded ∧
    (presenceCompleted flag s).cau.crowdedHeard = s.cau.crowdedHeard ∧ (presenceCompleted flag s).cau.rate = s.cau.rate ∧
    (presenceCompleted flag s).cau.paceSamples = s.cau.paceSamples ∧ (presenceCompleted flag s).cau.onAir = s.cau.onAir ∧
    (presenceCompleted flag s).cau.allstopRequest = s.cau.allstopRequest ∧
    (presenceCompleted flag s).cau.generator = s.cau.generator ∧ (presenceCompleted flag s).asu.rcq = s.asu.rcq ∧
    (presenceCompleted flag s).asu.exq = s.asu.exq ∧ (presenceCompleted flag s).asu.agingMs = s.asu.agingMs ∧
    (presenceCompleted flag s).bpl.held = s.bpl.held ∧ (presenceCompleted flag s).bpl.memory = s.bpl.memory ∧
    (presenceCompleted flag s).odu.rsq = s.odu.rsq ∧ (presenceCompleted flag s).odu.callNumber = s.odu.callNumber ∧
    (presenceCompleted flag s).odu.nextSequence = s.odu.nextSequence ∧
    (presenceCompleted flag s).odu.finishedSlots = s.odu.finishedSlots ∧ (presenceCompleted flag s).tmu.homeTeam = s.tmu.homeTeam ∧
    (presenceCompleted flag s).tmu.presenceRequest = s.tmu.presenceRequest ∧
    (presenceCompleted flag s).stu.hold = s.stu.hold ∧
    (presenceCompleted flag s).stu.repeatCount = s.stu.repeatCount ∧ (presenceCompleted flag s).stu.seriesTeam = s.stu.seriesTeam ∧
    (presenceCompleted flag s).stu.cabInput = s.stu.cabInput ∧ (presenceCompleted flag s).tpt.mask = s.tpt.mask ∧
    (presenceCompleted flag s).tpt.range = s.tpt.range ∧ (presenceCompleted flag s).tpt.port = s.tpt.port ∧
    (presenceCompleted flag s).pins = s.pins ∧ (presenceCompleted flag s).pending = s.pending := by
  generalize hb : presenceCompleted flag s = t
  unfold presenceCompleted at hb
  (repeat' split at hb) <;> subst hb <;> simp

@[simp] theorem presenceExpired_frame (s : State) :
    (presenceExpired s).time = s.time ∧ (presenceExpired s).cfl = s.cfl ∧ (presenceExpired s).rxc = s.rxc ∧
    (presenceExpired s).cau = s.cau ∧ (presenceExpired s).asu = s.asu ∧ (presenceExpired s).bpl = s.bpl ∧
    (presenceExpired s).odu = s.odu ∧ (presenceExpired s).tmu.attached = s.tmu.attached ∧
    (presenceExpired s).tmu.leavePending = s.tmu.leavePending ∧ (presenceExpired s).tmu.homeTeam = s.tmu.homeTeam ∧
    (presenceExpired s).tmu.peers = s.tmu.peers ∧ (presenceExpired s).tmu.control = s.tmu.control ∧ (presenceExpired s).stu = s.stu ∧
    (presenceExpired s).tpt = s.tpt ∧ (presenceExpired s).pins = s.pins ∧ (presenceExpired s).pending = s.pending := by
  generalize hb : presenceExpired s = t
  unfold presenceExpired at hb
  (repeat' (first | split at hb | (dsimp only at hb; split at hb))) <;> subst hb <;> simp

@[simp] theorem silenceExpired_frame (s : State) :
    (silenceExpired s).time = s.time ∧ (silenceExpired s).cfl = s.cfl ∧ (silenceExpired s).rxc = s.rxc ∧
    (silenceExpired s).cau = s.cau ∧ (silenceExpired s).asu = s.asu ∧ (silenceExpired s).bpl = s.bpl ∧
    (silenceExpired s).odu = s.odu ∧ (silenceExpired s).tmu.attached = s.tmu.attached ∧
    (silenceExpired s).tmu.leavePending = s.tmu.leavePending ∧ (silenceExpired s).tmu.homeTeam = s.tmu.homeTeam ∧
    (silenceExpired s).tmu.control = s.tmu.control ∧ (silenceExpired s).tmu.presenceRequest = s.tmu.presenceRequest ∧
    (silenceExpired s).stu.hold = s.stu.hold ∧ (silenceExpired s).stu.repeatCount = s.stu.repeatCount ∧
    (silenceExpired s).stu.seriesTeam = s.stu.seriesTeam ∧ (silenceExpired s).stu.cabInput = s.stu.cabInput ∧
    (silenceExpired s).tpt.mask = s.tpt.mask ∧ (silenceExpired s).tpt.range = s.tpt.range ∧
    (silenceExpired s).tpt.port = s.tpt.port ∧ (silenceExpired s).pins = s.pins ∧ (silenceExpired s).pending = s.pending := by
  generalize hb : silenceExpired s = t
  unfold silenceExpired at hb
  (repeat' (first | split at hb | (dsimp only at hb; split at hb))) <;> subst hb <;> simp

@[simp] theorem makeHolder_frame (station : Station) (s : State) :
    (makeHolder station s).time = s.time ∧ (makeHolder station s).cfl = s.cfl ∧ (makeHolder station s).rxc = s.rxc ∧
    (makeHolder station s).cau = s.cau ∧ (makeHolder station s).asu = s.asu ∧ (makeHolder station s).bpl = s.bpl ∧
    (makeHolder station s).odu = s.odu ∧ (makeHolder station s).tmu.attached = s.tmu.attached ∧
    (makeHolder station s).tmu.leavePending = s.tmu.leavePending ∧ (makeHolder station s).tmu.homeTeam = s.tmu.homeTeam ∧
    (makeHolder station s).tmu.peers = s.tmu.peers ∧ (makeHolder station s).tmu.presenceRequest = s.tmu.presenceRequest ∧
    (makeHolder station s).stu = s.stu ∧ (makeHolder station s).tpt = s.tpt ∧ (makeHolder station s).pins = s.pins ∧
    (makeHolder station s).pending = s.pending := by
  generalize hb : makeHolder station s = t
  unfold makeHolder at hb
  (repeat' split at hb) <;> subst hb <;> simp

@[simp] theorem takeVerdict_frame (sender : Station) (s : State) :
    (takeVerdict sender s).2.time = s.time ∧ (takeVerdict sender s).2.cfl = s.cfl ∧ (takeVerdict sender s).2.rxc = s.rxc ∧
    (takeVerdict sender s).2.cau = s.cau ∧ (takeVerdict sender s).2.asu = s.asu ∧ (takeVerdict sender s).2.bpl = s.bpl ∧
    (takeVerdict sender s).2.odu = s.odu ∧ (takeVerdict sender s).2.tmu.attached = s.tmu.attached ∧
    (takeVerdict sender s).2.tmu.leavePending = s.tmu.leavePending ∧ (takeVerdict sender s).2.tmu.homeTeam = s.tmu.homeTeam ∧
    (takeVerdict sender s).2.tmu.peers = s.tmu.peers ∧ (takeVerdict sender s).2.tmu.presenceRequest = s.tmu.presenceRequest ∧
    (takeVerdict sender s).2.stu.hold = s.stu.hold ∧ (takeVerdict sender s).2.stu.repeatCount = s.stu.repeatCount ∧
    (takeVerdict sender s).2.stu.seriesTeam = s.stu.seriesTeam ∧ (takeVerdict sender s).2.stu.cabInput = s.stu.cabInput ∧
    (takeVerdict sender s).2.tpt.mask = s.tpt.mask ∧ (takeVerdict sender s).2.tpt.range = s.tpt.range ∧
    (takeVerdict sender s).2.tpt.port = s.tpt.port ∧ (takeVerdict sender s).2.pins = s.pins ∧
    (takeVerdict sender s).2.pending = s.pending := by
  generalize hb : takeVerdict sender s = t
  unfold takeVerdict at hb
  (repeat' split at hb) <;> subst hb <;> simp

@[simp] theorem relinquishVerdict_frame (sender : Station) (s : State) :
    (relinquishVerdict sender s).2.time = s.time ∧ (relinquishVerdict sender s).2.cfl = s.cfl ∧
    (relinquishVerdict sender s).2.rxc = s.rxc ∧ (relinquishVerdict sender s).2.cau = s.cau ∧
    (relinquishVerdict sender s).2.asu = s.asu ∧ (relinquishVerdict sender s).2.bpl = s.bpl ∧
    (relinquishVerdict sender s).2.odu = s.odu ∧ (relinquishVerdict sender s).2.tmu.attached = s.tmu.attached ∧
    (relinquishVerdict sender s).2.tmu.leavePending = s.tmu.leavePending ∧
    (relinquishVerdict sender s).2.tmu.homeTeam = s.tmu.homeTeam ∧ (relinquishVerdict sender s).2.tmu.peers = s.tmu.peers ∧
    (relinquishVerdict sender s).2.tmu.presenceRequest = s.tmu.presenceRequest ∧
    (relinquishVerdict sender s).2.stu.hold = s.stu.hold ∧ (relinquishVerdict sender s).2.stu.repeatCount = s.stu.repeatCount ∧
    (relinquishVerdict sender s).2.stu.seriesTeam = s.stu.seriesTeam ∧ (relinquishVerdict sender s).2.stu.cabInput = s.stu.cabInput ∧
    (relinquishVerdict sender s).2.tpt.mask = s.tpt.mask ∧ (relinquishVerdict sender s).2.tpt.range = s.tpt.range ∧
    (relinquishVerdict sender s).2.tpt.port = s.tpt.port ∧ (relinquishVerdict sender s).2.pins = s.pins ∧
    (relinquishVerdict sender s).2.pending = s.pending := by
  generalize hb : relinquishVerdict sender s = t
  unfold relinquishVerdict at hb
  (repeat' split at hb) <;> subst hb <;> simp

@[simp] theorem decideVerdict_frame (sender : Station) (callType : Byte) (s : State) :
    (decideVerdict sender callType s).2.time = s.time ∧ (decideVerdict sender callType s).2.cfl = s.cfl ∧
    (decideVerdict sender callType s).2.rxc = s.rxc ∧ (decideVerdict sender callType s).2.cau = s.cau ∧
    (decideVerdict sender callType s).2.asu = s.asu ∧ (decideVerdict sender callType s).2.bpl = s.bpl ∧
    (decideVerdict sender callType s).2.odu = s.odu ∧ (decideVerdict sender callType s).2.tmu.attached = s.tmu.attached ∧
    (decideVerdict sender callType s).2.tmu.leavePending = s.tmu.leavePending ∧
    (decideVerdict sender callType s).2.tmu.homeTeam = s.tmu.homeTeam ∧ (decideVerdict sender callType s).2.tmu.peers = s.tmu.peers ∧
    (decideVerdict sender callType s).2.tmu.presenceRequest = s.tmu.presenceRequest ∧
    (decideVerdict sender callType s).2.stu.hold = s.stu.hold ∧
    (decideVerdict sender callType s).2.stu.repeatCount = s.stu.repeatCount ∧
    (decideVerdict sender callType s).2.stu.seriesTeam = s.stu.seriesTeam ∧
    (decideVerdict sender callType s).2.stu.cabInput = s.stu.cabInput ∧ (decideVerdict sender callType s).2.tpt.mask = s.tpt.mask ∧
    (decideVerdict sender callType s).2.tpt.range = s.tpt.range ∧ (decideVerdict sender callType s).2.tpt.port = s.tpt.port ∧
    (decideVerdict sender callType s).2.pins = s.pins ∧ (decideVerdict sender callType s).2.pending = s.pending := by
  generalize hb : decideVerdict sender callType s = t
  unfold decideVerdict at hb
  (repeat' (first | split at hb | (dsimp only at hb; split at hb))) <;> subst hb <;> simp

@[simp] theorem overheardOffer_frame (sender target : Station) (stamp : Stamp) (s : State) :
    (overheardOffer sender target stamp s).time = s.time ∧ (overheardOffer sender target stamp s).cfl = s.cfl ∧
    (overheardOffer sender target stamp s).rxc = s.rxc ∧ (overheardOffer sender target stamp s).cau = s.cau ∧
    (overheardOffer sender target stamp s).asu = s.asu ∧ (overheardOffer sender target stamp s).bpl = s.bpl ∧
    (overheardOffer sender target stamp s).odu = s.odu ∧ (overheardOffer sender target stamp s).tmu.attached = s.tmu.attached ∧
    (overheardOffer sender target stamp s).tmu.leavePending = s.tmu.leavePending ∧
    (overheardOffer sender target stamp s).tmu.homeTeam = s.tmu.homeTeam ∧
    (overheardOffer sender target stamp s).tmu.peers = s.tmu.peers ∧
    (overheardOffer sender target stamp s).tmu.presenceRequest = s.tmu.presenceRequest ∧
    (overheardOffer sender target stamp s).stu = s.stu ∧ (overheardOffer sender target stamp s).tpt = s.tpt ∧
    (overheardOffer sender target stamp s).pins = s.pins ∧ (overheardOffer sender target stamp s).pending = s.pending := by
  generalize hb : overheardOffer sender target stamp s = t
  unfold overheardOffer at hb
  (repeat' split at hb) <;> subst hb <;> simp

@[simp] theorem overheardCall_frame (sender target : Station) (callType : Byte) (stamp : Stamp) (s : State) :
    (overheardCall sender target callType stamp s).time = s.time ∧ (overheardCall sender target callType stamp s).cfl = s.cfl ∧
    (overheardCall sender target callType stamp s).rxc = s.rxc ∧ (overheardCall sender target callType stamp s).cau = s.cau ∧
    (overheardCall sender target callType stamp s).asu = s.asu ∧ (overheardCall sender target callType stamp s).bpl = s.bpl ∧
    (overheardCall sender target callType stamp s).odu = s.odu ∧
    (overheardCall sender target callType stamp s).tmu.attached = s.tmu.attached ∧
    (overheardCall sender target callType stamp s).tmu.leavePending = s.tmu.leavePending ∧
    (overheardCall sender target callType stamp s).tmu.homeTeam = s.tmu.homeTeam ∧
    (overheardCall sender target callType stamp s).tmu.peers = s.tmu.peers ∧
    (overheardCall sender target callType stamp s).tmu.presenceRequest = s.tmu.presenceRequest ∧
    (overheardCall sender target callType stamp s).stu.hold = s.stu.hold ∧
    (overheardCall sender target callType stamp s).stu.repeatCount = s.stu.repeatCount ∧
    (overheardCall sender target callType stamp s).stu.seriesTeam = s.stu.seriesTeam ∧
    (overheardCall sender target callType stamp s).stu.cabInput = s.stu.cabInput ∧
    (overheardCall sender target callType stamp s).tpt.mask = s.tpt.mask ∧
    (overheardCall sender target callType stamp s).tpt.range = s.tpt.range ∧
    (overheardCall sender target callType stamp s).tpt.port = s.tpt.port ∧
    (overheardCall sender target callType stamp s).pins = s.pins ∧ (overheardCall sender target callType stamp s).pending = s.pending := by
  generalize hb : overheardCall sender target callType stamp s = t
  unfold overheardCall at hb
  (repeat' split at hb) <;> subst hb <;> simp

@[simp] theorem offerLapsed_frame (s : State) :
    (offerLapsed s).time = s.time ∧ (offerLapsed s).cfl = s.cfl ∧ (offerLapsed s).rxc = s.rxc ∧ (offerLapsed s).cau = s.cau ∧
    (offerLapsed s).asu = s.asu ∧ (offerLapsed s).bpl = s.bpl ∧ (offerLapsed s).odu = s.odu ∧
    (offerLapsed s).tmu.attached = s.tmu.attached ∧ (offerLapsed s).tmu.leavePending = s.tmu.leavePending ∧
    (offerLapsed s).tmu.homeTeam = s.tmu.homeTeam ∧ (offerLapsed s).tmu.peers = s.tmu.peers ∧
    (offerLapsed s).tmu.presenceRequest = s.tmu.presenceRequest ∧
    (offerLapsed s).stu = s.stu ∧ (offerLapsed s).tpt = s.tpt ∧
    (offerLapsed s).pins = s.pins ∧ (offerLapsed s).pending = s.pending := by
  generalize hb : offerLapsed s = t
  unfold offerLapsed at hb
  (repeat' split at hb) <;> subst hb <;> simp

/-! #### Assembly -/

@[simp] theorem setContext_frame (i : Nat) (c : Context) (s : State) :
    (setContext i c s).time = s.time ∧ (setContext i c s).cfl = s.cfl ∧ (setContext i c s).rxc = s.rxc ∧
    (setContext i c s).cau = s.cau ∧ (setContext i c s).asu.rcq = s.asu.rcq ∧ (setContext i c s).asu.exq = s.asu.exq ∧
    (setContext i c s).asu.agingMs = s.asu.agingMs ∧ (setContext i c s).bpl = s.bpl ∧ (setContext i c s).odu = s.odu ∧
    (setContext i c s).tmu = s.tmu ∧ (setContext i c s).stu = s.stu ∧ (setContext i c s).tpt = s.tpt ∧
    (setContext i c s).pins = s.pins ∧ (setContext i c s).pending = s.pending := by
  generalize hb : setContext i c s = t
  unfold setContext at hb
  (repeat' split at hb) <;> subst hb <;> simp

@[simp] theorem offerIfConfirm_frame (c : Context) (d : Digest) (v : Verdict) (s : State) :
    (offerIfConfirm c d v s).time = s.time ∧ (offerIfConfirm c d v s).cfl = s.cfl ∧ (offerIfConfirm c d v s).rxc = s.rxc ∧
    (offerIfConfirm c d v s).cau = s.cau ∧ (offerIfConfirm c d v s).asu = s.asu ∧ (offerIfConfirm c d v s).bpl = s.bpl ∧
    (offerIfConfirm c d v s).odu.rsq = s.odu.rsq ∧ (offerIfConfirm c d v s).odu.callNumber = s.odu.callNumber ∧
    (offerIfConfirm c d v s).odu.nextSequence = s.odu.nextSequence ∧
    (offerIfConfirm c d v s).odu.finishedSlots = s.odu.finishedSlots ∧ (offerIfConfirm c d v s).tmu = s.tmu ∧
    (offerIfConfirm c d v s).stu = s.stu ∧ (offerIfConfirm c d v s).tpt = s.tpt ∧ (offerIfConfirm c d v s).pins = s.pins ∧
    (offerIfConfirm c d v s).pending = s.pending := by
  generalize hb : offerIfConfirm c d v s = t
  unfold offerIfConfirm at hb
  (repeat' split at hb) <;> subst hb <;> simp

@[simp] theorem rememberDelivered_frame (c : Context) (d : Digest) (v : Verdict) (s : State) :
    (rememberDelivered c d v s).time = s.time ∧ (rememberDelivered c d v s).cfl = s.cfl ∧ (rememberDelivered c d v s).rxc = s.rxc ∧
    (rememberDelivered c d v s).cau = s.cau ∧ (rememberDelivered c d v s).asu = s.asu ∧ (rememberDelivered c d v s).bpl = s.bpl ∧
    (rememberDelivered c d v s).odu = s.odu ∧ (rememberDelivered c d v s).tmu.attached = s.tmu.attached ∧
    (rememberDelivered c d v s).tmu.leavePending = s.tmu.leavePending ∧ (rememberDelivered c d v s).tmu.homeTeam = s.tmu.homeTeam ∧
    (rememberDelivered c d v s).tmu.control = s.tmu.control ∧
    (rememberDelivered c d v s).tmu.presenceRequest = s.tmu.presenceRequest ∧
    (rememberDelivered c d v s).stu = s.stu ∧
    (rememberDelivered c d v s).tpt = s.tpt ∧ (rememberDelivered c d v s).pins = s.pins ∧
    (rememberDelivered c d v s).pending = s.pending := by
  generalize hb : rememberDelivered c d v s = t
  unfold rememberDelivered at hb
  (repeat' split at hb) <;> subst hb <;> simp

@[simp] theorem placeRecord_frame (i : Nat) (c : Context) (stamp : Stamp) (s : State) :
    (placeRecord i c stamp s).time = s.time ∧ (placeRecord i c stamp s).cfl = s.cfl ∧ (placeRecord i c stamp s).rxc = s.rxc ∧
    (placeRecord i c stamp s).cau = s.cau ∧ (placeRecord i c stamp s).asu.exq = s.asu.exq ∧
    (placeRecord i c stamp s).asu.agingMs = s.asu.agingMs ∧ (placeRecord i c stamp s).bpl = s.bpl ∧
    (placeRecord i c stamp s).odu = s.odu ∧ (placeRecord i c stamp s).tmu = s.tmu ∧ (placeRecord i c stamp s).stu = s.stu ∧
    (placeRecord i c stamp s).tpt = s.tpt ∧ (placeRecord i c stamp s).pins = s.pins ∧ (placeRecord i c stamp s).pending = s.pending := by
  generalize hb : placeRecord i c stamp s = t
  unfold placeRecord at hb
  (repeat' split at hb) <;> subst hb <;> simp

@[simp] theorem turnAway_frame (i : Nat) (c : Context) (index : Nat) (stamp : Stamp) (s : State) :
    (turnAway i c index stamp s).time = s.time ∧ (turnAway i c index stamp s).cfl = s.cfl ∧
    (turnAway i c index stamp s).rxc = s.rxc ∧ (turnAway i c index stamp s).cau = s.cau ∧
    (turnAway i c index stamp s).asu.rcq = s.asu.rcq ∧ (turnAway i c index stamp s).asu.agingMs = s.asu.agingMs ∧
    (turnAway i c index stamp s).bpl.held = s.bpl.held ∧ (turnAway i c index stamp s).bpl.memory = s.bpl.memory ∧
    (turnAway i c index stamp s).odu = s.odu ∧ (turnAway i c index stamp s).tmu = s.tmu ∧ (turnAway i c index stamp s).stu = s.stu ∧
    (turnAway i c index stamp s).tpt.mask = s.tpt.mask ∧ (turnAway i c index stamp s).tpt.range = s.tpt.range ∧
    (turnAway i c index stamp s).tpt.port = s.tpt.port ∧ (turnAway i c index stamp s).pins = s.pins ∧
    (turnAway i c index stamp s).pending = s.pending := by
  generalize hb : turnAway i c index stamp s = t
  unfold turnAway at hb
  (repeat' split at hb) <;> subst hb <;> simp

@[simp] theorem deliverPartActed_frame (i : Nat) (c : Context) (d : Digest) (v : Verdict) (index : Nat) (stamp : Stamp) (s : State) :
    (deliverPartActed i c d v index stamp s).time = s.time ∧ (deliverPartActed i c d v index stamp s).cfl = s.cfl ∧
    (deliverPartActed i c d v index stamp s).rxc = s.rxc ∧ (deliverPartActed i c d v index stamp s).cau = s.cau ∧
    (deliverPartActed i c d v index stamp s).asu.agingMs = s.asu.agingMs ∧
    (deliverPartActed i c d v index stamp s).bpl.held = s.bpl.held ∧
    (deliverPartActed i c d v index stamp s).bpl.memory = s.bpl.memory ∧
    (deliverPartActed i c d v index stamp s).odu.rsq = s.odu.rsq ∧
    (deliverPartActed i c d v index stamp s).odu.callNumber = s.odu.callNumber ∧
    (deliverPartActed i c d v index stamp s).odu.nextSequence = s.odu.nextSequence ∧
    (deliverPartActed i c d v index stamp s).odu.finishedSlots = s.odu.finishedSlots ∧
    (deliverPartActed i c d v index stamp s).tmu.attached = s.tmu.attached ∧
    (deliverPartActed i c d v index stamp s).tmu.leavePending = s.tmu.leavePending ∧
    (deliverPartActed i c d v index stamp s).tmu.homeTeam = s.tmu.homeTeam ∧
    (deliverPartActed i c d v index stamp s).tmu.control = s.tmu.control ∧
    (deliverPartActed i c d v index stamp s).tmu.presenceRequest = s.tmu.presenceRequest ∧
    (deliverPartActed i c d v index stamp s).stu = s.stu ∧ (deliverPartActed i c d v index stamp s).tpt.mask = s.tpt.mask ∧
    (deliverPartActed i c d v index stamp s).tpt.range = s.tpt.range ∧
    (deliverPartActed i c d v index stamp s).tpt.port = s.tpt.port ∧ (deliverPartActed i c d v index stamp s).pins = s.pins ∧
    (deliverPartActed i c d v index stamp s).pending = s.pending := by
  generalize hb : deliverPartActed i c d v index stamp s = t
  unfold deliverPartActed at hb
  (repeat' (first | split at hb | (dsimp only at hb; split at hb))) <;> subst hb <;> simp

@[simp] theorem deliverProcessorActed_frame (i : Nat) (c : Context) (d : Digest) (v : Verdict) (index : Nat) (stamp : Stamp) (s : State) :
    (deliverProcessorActed i c d v index stamp s).time = s.time ∧ (deliverProcessorActed i c d v index stamp s).cfl = s.cfl ∧
    (deliverProcessorActed i c d v index stamp s).rxc = s.rxc ∧ (deliverProcessorActed i c d v index stamp s).cau = s.cau ∧
    (deliverProcessorActed i c d v index stamp s).asu.agingMs = s.asu.agingMs ∧
    (deliverProcessorActed i c d v index stamp s).bpl.held = s.bpl.held ∧
    (deliverProcessorActed i c d v index stamp s).bpl.memory = s.bpl.memory ∧
    (deliverProcessorActed i c d v index stamp s).odu.rsq = s.odu.rsq ∧
    (deliverProcessorActed i c d v index stamp s).odu.callNumber = s.odu.callNumber ∧
    (deliverProcessorActed i c d v index stamp s).odu.nextSequence = s.odu.nextSequence ∧
    (deliverProcessorActed i c d v index stamp s).odu.finishedSlots = s.odu.finishedSlots ∧
    (deliverProcessorActed i c d v index stamp s).tmu.attached = s.tmu.attached ∧
    (deliverProcessorActed i c d v index stamp s).tmu.leavePending = s.tmu.leavePending ∧
    (deliverProcessorActed i c d v index stamp s).tmu.homeTeam = s.tmu.homeTeam ∧
    (deliverProcessorActed i c d v index stamp s).tmu.control = s.tmu.control ∧
    (deliverProcessorActed i c d v index stamp s).tmu.presenceRequest = s.tmu.presenceRequest ∧
    (deliverProcessorActed i c d v index stamp s).stu = s.stu ∧ (deliverProcessorActed i c d v index stamp s).tpt.mask = s.tpt.mask ∧
    (deliverProcessorActed i c d v index stamp s).tpt.range = s.tpt.range ∧
    (deliverProcessorActed i c d v index stamp s).tpt.port = s.tpt.port ∧
    (deliverProcessorActed i c d v index stamp s).pins = s.pins ∧ (deliverProcessorActed i c d v index stamp s).pending = s.pending := by
  generalize hb : deliverProcessorActed i c d v index stamp s = t
  unfold deliverProcessorActed at hb
  (repeat' split at hb) <;> subst hb <;> simp

@[simp] theorem completeDuplicate_frame (i : Nat) (c : Context) (d : Digest) (v : Verdict) (s : State) :
    (completeDuplicate i c d v s).time = s.time ∧ (completeDuplicate i c d v s).cfl = s.cfl ∧
    (completeDuplicate i c d v s).rxc.reception = s.rxc.reception ∧ (completeDuplicate i c d v s).cau = s.cau ∧
    (completeDuplicate i c d v s).asu.rcq = s.asu.rcq ∧ (completeDuplicate i c d v s).asu.exq = s.asu.exq ∧
    (completeDuplicate i c d v s).asu.agingMs = s.asu.agingMs ∧ (completeDuplicate i c d v s).bpl.held = s.bpl.held ∧
    (completeDuplicate i c d v s).bpl.memory = s.bpl.memory ∧ (completeDuplicate i c d v s).odu.rsq = s.odu.rsq ∧
    (completeDuplicate i c d v s).odu.callNumber = s.odu.callNumber ∧
    (completeDuplicate i c d v s).odu.nextSequence = s.odu.nextSequence ∧
    (completeDuplicate i c d v s).odu.finishedSlots = s.odu.finishedSlots ∧ (completeDuplicate i c d v s).tmu = s.tmu ∧
    (completeDuplicate i c d v s).stu.hold = s.stu.hold ∧ (completeDuplicate i c d v s).stu.repeatCount = s.stu.repeatCount ∧
    (completeDuplicate i c d v s).stu.seriesTeam = s.stu.seriesTeam ∧ (completeDuplicate i c d v s).stu.cabInput = s.stu.cabInput ∧
    (completeDuplicate i c d v s).tpt.mask = s.tpt.mask ∧ (completeDuplicate i c d v s).tpt.range = s.tpt.range ∧
    (completeDuplicate i c d v s).tpt.port = s.tpt.port ∧ (completeDuplicate i c d v s).pins = s.pins ∧
    (completeDuplicate i c d v s).pending = s.pending := by
  generalize hb : completeDuplicate i c d v s = t
  unfold completeDuplicate at hb
  (repeat' split at hb) <;> subst hb <;> simp

@[simp] theorem completeNew_frame (i : Nat) (c : Context) (d : Digest) (index : Nat) (stamp : Stamp) (s : State) :
    (completeNew i c d index stamp s).time = s.time ∧ (completeNew i c d index stamp s).cfl = s.cfl ∧
    (completeNew i c d index stamp s).rxc = s.rxc ∧ (completeNew i c d index stamp s).cau = s.cau ∧
    (completeNew i c d index stamp s).asu.agingMs = s.asu.agingMs ∧ (completeNew i c d index stamp s).bpl.held = s.bpl.held ∧
    (completeNew i c d index stamp s).bpl.memory = s.bpl.memory ∧ (completeNew i c d index stamp s).odu.rsq = s.odu.rsq ∧
    (completeNew i c d index stamp s).odu.callNumber = s.odu.callNumber ∧
    (completeNew i c d index stamp s).odu.nextSequence = s.odu.nextSequence ∧
    (completeNew i c d index stamp s).odu.finishedSlots = s.odu.finishedSlots ∧
    (completeNew i c d index stamp s).tmu.attached = s.tmu.attached ∧
    (completeNew i c d index stamp s).tmu.leavePending = s.tmu.leavePending ∧
    (completeNew i c d index stamp s).tmu.homeTeam = s.tmu.homeTeam ∧
    (completeNew i c d index stamp s).tmu.presenceRequest = s.tmu.presenceRequest ∧
    (completeNew i c d index stamp s).stu.hold = s.stu.hold ∧ (completeNew i c d index stamp s).stu.repeatCount = s.stu.repeatCount ∧
    (completeNew i c d index stamp s).stu.seriesTeam = s.stu.seriesTeam ∧
    (completeNew i c d index stamp s).stu.cabInput = s.stu.cabInput ∧ (completeNew i c d index stamp s).tpt.mask = s.tpt.mask ∧
    (completeNew i c d index stamp s).tpt.range = s.tpt.range ∧ (completeNew i c d index stamp s).tpt.port = s.tpt.port ∧
    (completeNew i c d index stamp s).pins = s.pins ∧ (completeNew i c d index stamp s).pending = s.pending := by
  generalize hb : completeNew i c d index stamp s = t
  unfold completeNew at hb
  (repeat' (first | split at hb | (dsimp only at hb; split at hb))) <;> subst hb <;> simp

@[simp] theorem completeCall_frame (i : Nat) (c : Context) (index : Nat) (stamp : Stamp) (s : State) :
    (completeCall i c index stamp s).time = s.time ∧ (completeCall i c index stamp s).cfl = s.cfl ∧
    (completeCall i c index stamp s).rxc.reception = s.rxc.reception ∧ (completeCall i c index stamp s).cau = s.cau ∧
    (completeCall i c index stamp s).asu.agingMs = s.asu.agingMs ∧ (completeCall i c index stamp s).bpl.held = s.bpl.held ∧
    (completeCall i c index stamp s).bpl.memory = s.bpl.memory ∧ (completeCall i c index stamp s).odu.rsq = s.odu.rsq ∧
    (completeCall i c index stamp s).odu.callNumber = s.odu.callNumber ∧
    (completeCall i c index stamp s).odu.nextSequence = s.odu.nextSequence ∧
    (completeCall i c index stamp s).odu.finishedSlots = s.odu.finishedSlots ∧
    (completeCall i c index stamp s).tmu.attached = s.tmu.attached ∧
    (completeCall i c index stamp s).tmu.leavePending = s.tmu.leavePending ∧
    (completeCall i c index stamp s).tmu.homeTeam = s.tmu.homeTeam ∧
    (completeCall i c index stamp s).tmu.presenceRequest = s.tmu.presenceRequest ∧
    (completeCall i c index stamp s).stu.hold = s.stu.hold ∧ (completeCall i c index stamp s).stu.repeatCount = s.stu.repeatCount ∧
    (completeCall i c index stamp s).stu.seriesTeam = s.stu.seriesTeam ∧
    (completeCall i c index stamp s).stu.cabInput = s.stu.cabInput ∧ (completeCall i c index stamp s).tpt.mask = s.tpt.mask ∧
    (completeCall i c index stamp s).tpt.range = s.tpt.range ∧ (completeCall i c index stamp s).tpt.port = s.tpt.port ∧
    (completeCall i c index stamp s).pins = s.pins ∧ (completeCall i c index stamp s).pending = s.pending := by
  generalize hb : completeCall i c index stamp s = t
  unfold completeCall at hb
  (repeat' (first | split at hb | (dsimp only at hb; split at hb))) <;> subst hb <;> simp

@[simp] theorem takeBuffer_frame (buffer : BufferNumber) (body : List Byte) (s : State) :
    (takeBuffer buffer body s).time = s.time ∧ (takeBuffer buffer body s).cfl = s.cfl ∧ (takeBuffer buffer body s).rxc = s.rxc ∧
    (takeBuffer buffer body s).cau = s.cau ∧ (takeBuffer buffer body s).asu = s.asu ∧
    (takeBuffer buffer body s).bpl.held = s.bpl.held ∧ (takeBuffer buffer body s).odu = s.odu ∧
    (takeBuffer buffer body s).tmu = s.tmu ∧ (takeBuffer buffer body s).stu = s.stu ∧ (takeBuffer buffer body s).tpt = s.tpt ∧
    (takeBuffer buffer body s).pins = s.pins ∧ (takeBuffer buffer body s).pending = s.pending := by
  generalize hb : takeBuffer buffer body s = t
  unfold takeBuffer at hb
  (repeat' split at hb) <;> subst hb <;> simp

@[simp] theorem startCall_frame (b : Burst) (stamp : Stamp) (s : State) :
    (startCall b stamp s).time = s.time ∧ (startCall b stamp s).cfl = s.cfl ∧ (startCall b stamp s).rxc.reception = s.rxc.reception ∧
    (startCall b stamp s).cau = s.cau ∧ (startCall b stamp s).asu.agingMs = s.asu.agingMs ∧
    (startCall b stamp s).bpl.held = s.bpl.held ∧ (startCall b stamp s).odu.rsq = s.odu.rsq ∧
    (startCall b stamp s).odu.callNumber = s.odu.callNumber ∧ (startCall b stamp s).odu.nextSequence = s.odu.nextSequence ∧
    (startCall b stamp s).odu.finishedSlots = s.odu.finishedSlots ∧ (startCall b stamp s).tmu.attached = s.tmu.attached ∧
    (startCall b stamp s).tmu.leavePending = s.tmu.leavePending ∧ (startCall b stamp s).tmu.homeTeam = s.tmu.homeTeam ∧
    (startCall b stamp s).tmu.presenceRequest = s.tmu.presenceRequest ∧
    (startCall b stamp s).stu.hold = s.stu.hold ∧
    (startCall b stamp s).stu.repeatCount = s.stu.repeatCount ∧ (startCall b stamp s).stu.seriesTeam = s.stu.seriesTeam ∧
    (startCall b stamp s).stu.cabInput = s.stu.cabInput ∧ (startCall b stamp s).tpt.mask = s.tpt.mask ∧
    (startCall b stamp s).tpt.range = s.tpt.range ∧ (startCall b stamp s).tpt.port = s.tpt.port ∧
    (startCall b stamp s).pins = s.pins ∧ (startCall b stamp s).pending = s.pending := by
  generalize hb : startCall b stamp s = t
  unfold startCall at hb
  (repeat' (first | split at hb | (dsimp only at hb; split at hb))) <;> subst hb <;> simp

@[simp] theorem fragmentZero_frame (b : Burst) (stamp : Stamp) (s : State) :
    (fragmentZero b stamp s).time = s.time ∧ (fragmentZero b stamp s).cfl = s.cfl ∧
    (fragmentZero b stamp s).rxc.reception = s.rxc.reception ∧ (fragmentZero b stamp s).cau = s.cau ∧
    (fragmentZero b stamp s).asu.agingMs = s.asu.agingMs ∧ (fragmentZero b stamp s).bpl.held = s.bpl.held ∧
    (fragmentZero b stamp s).odu.rsq = s.odu.rsq ∧ (fragmentZero b stamp s).odu.callNumber = s.odu.callNumber ∧
    (fragmentZero b stamp s).odu.nextSequence = s.odu.nextSequence ∧
    (fragmentZero b stamp s).odu.finishedSlots = s.odu.finishedSlots ∧ (fragmentZero b stamp s).tmu.attached = s.tmu.attached ∧
    (fragmentZero b stamp s).tmu.leavePending = s.tmu.leavePending ∧ (fragmentZero b stamp s).tmu.homeTeam = s.tmu.homeTeam ∧
    (fragmentZero b stamp s).tmu.presenceRequest = s.tmu.presenceRequest ∧
    (fragmentZero b stamp s).stu.hold = s.stu.hold ∧
    (fragmentZero b stamp s).stu.repeatCount = s.stu.repeatCount ∧ (fragmentZero b stamp s).stu.seriesTeam = s.stu.seriesTeam ∧
    (fragmentZero b stamp s).stu.cabInput = s.stu.cabInput ∧ (fragmentZero b stamp s).tpt.mask = s.tpt.mask ∧
    (fragmentZero b stamp s).tpt.range = s.tpt.range ∧ (fragmentZero b stamp s).tpt.port = s.tpt.port ∧
    (fragmentZero b stamp s).pins = s.pins ∧ (fragmentZero b stamp s).pending = s.pending := by
  generalize hb : fragmentZero b stamp s = t
  unfold fragmentZero at hb
  (repeat' split at hb) <;> subst hb <;> simp

@[simp] theorem takeInOrder_frame (i : Nat) (c : Context) (b : Burst) (index : Nat) (stamp : Stamp) (s : State) :
    (takeInOrder i c b index stamp s).time = s.time ∧ (takeInOrder i c b index stamp s).cfl = s.cfl ∧
    (takeInOrder i c b index stamp s).rxc.reception = s.rxc.reception ∧ (takeInOrder i c b index stamp s).cau = s.cau ∧
    (takeInOrder i c b index stamp s).asu.agingMs = s.asu.agingMs ∧ (takeInOrder i c b index stamp s).bpl.held = s.bpl.held ∧
    (takeInOrder i c b index stamp s).odu.rsq = s.odu.rsq ∧ (takeInOrder i c b index stamp s).odu.callNumber = s.odu.callNumber ∧
    (takeInOrder i c b index stamp s).odu.nextSequence = s.odu.nextSequence ∧
    (takeInOrder i c b index stamp s).odu.finishedSlots = s.odu.finishedSlots ∧
    (takeInOrder i c b index stamp s).tmu.attached = s.tmu.attached ∧
    (takeInOrder i c b index stamp s).tmu.leavePending = s.tmu.leavePending ∧
    (takeInOrder i c b index stamp s).tmu.homeTeam = s.tmu.homeTeam ∧
    (takeInOrder i c b index stamp s).tmu.presenceRequest = s.tmu.presenceRequest ∧
    (takeInOrder i c b index stamp s).stu.hold = s.stu.hold ∧ (takeInOrder i c b index stamp s).stu.repeatCount = s.stu.repeatCount ∧
    (takeInOrder i c b index stamp s).stu.seriesTeam = s.stu.seriesTeam ∧
    (takeInOrder i c b index stamp s).stu.cabInput = s.stu.cabInput ∧ (takeInOrder i c b index stamp s).tpt.mask = s.tpt.mask ∧
    (takeInOrder i c b index stamp s).tpt.range = s.tpt.range ∧ (takeInOrder i c b index stamp s).tpt.port = s.tpt.port ∧
    (takeInOrder i c b index stamp s).pins = s.pins ∧ (takeInOrder i c b index stamp s).pending = s.pending := by
  generalize hb : takeInOrder i c b index stamp s = t
  unfold takeInOrder at hb
  (repeat' split at hb) <;> subst hb <;> simp

@[simp] theorem laterFragment_frame (b : Burst) (index : Nat) (stamp : Stamp) (s : State) :
    (laterFragment b index stamp s).time = s.time ∧ (laterFragment b index stamp s).cfl = s.cfl ∧
    (laterFragment b index stamp s).rxc.reception = s.rxc.reception ∧ (laterFragment b index stamp s).cau = s.cau ∧
    (laterFragment b index stamp s).asu.agingMs = s.asu.agingMs ∧ (laterFragment b index stamp s).bpl.held = s.bpl.held ∧
    (laterFragment b index stamp s).odu.rsq = s.odu.rsq ∧ (laterFragment b index stamp s).odu.callNumber = s.odu.callNumber ∧
    (laterFragment b index stamp s).odu.nextSequence = s.odu.nextSequence ∧
    (laterFragment b index stamp s).odu.finishedSlots = s.odu.finishedSlots ∧
    (laterFragment b index stamp s).tmu.attached = s.tmu.attached ∧
    (laterFragment b index stamp s).tmu.leavePending = s.tmu.leavePending ∧
    (laterFragment b index stamp s).tmu.homeTeam = s.tmu.homeTeam ∧
    (laterFragment b index stamp s).tmu.presenceRequest = s.tmu.presenceRequest ∧
    (laterFragment b index stamp s).stu.hold = s.stu.hold ∧ (laterFragment b index stamp s).stu.repeatCount = s.stu.repeatCount ∧
    (laterFragment b index stamp s).stu.seriesTeam = s.stu.seriesTeam ∧
    (laterFragment b index stamp s).stu.cabInput = s.stu.cabInput ∧ (laterFragment b index stamp s).tpt.mask = s.tpt.mask ∧
    (laterFragment b index stamp s).tpt.range = s.tpt.range ∧ (laterFragment b index stamp s).tpt.port = s.tpt.port ∧
    (laterFragment b index stamp s).pins = s.pins ∧ (laterFragment b index stamp s).pending = s.pending := by
  generalize hb : laterFragment b index stamp s = t
  unfold laterFragment at hb
  (repeat' split at hb) <;> subst hb <;> simp

@[simp] theorem callArrived_frame (b : Burst) (stamp : Stamp) (s : State) :
    (callArrived b stamp s).time = s.time ∧ (callArrived b stamp s).cfl = s.cfl ∧
    (callArrived b stamp s).rxc.reception = s.rxc.reception ∧ (callArrived b stamp s).cau = s.cau ∧
    (callArrived b stamp s).asu.agingMs = s.asu.agingMs ∧ (callArrived b stamp s).bpl.held = s.bpl.held ∧
    (callArrived b stamp s).odu.rsq = s.odu.rsq ∧ (callArrived b stamp s).odu.callNumber = s.odu.callNumber ∧
    (callArrived b stamp s).odu.nextSequence = s.odu.nextSequence ∧ (callArrived b stamp s).odu.finishedSlots = s.odu.finishedSlots ∧
    (callArrived b stamp s).tmu.attached = s.tmu.attached ∧ (callArrived b stamp s).tmu.leavePending = s.tmu.leavePending ∧
    (callArrived b stamp s).tmu.homeTeam = s.tmu.homeTeam ∧ (callArrived b stamp s).tmu.presenceRequest = s.tmu.presenceRequest ∧
    (callArrived b stamp s).stu.hold = s.stu.hold ∧ (callArrived b stamp s).stu.repeatCount = s.stu.repeatCount ∧
    (callArrived b stamp s).stu.seriesTeam = s.stu.seriesTeam ∧ (callArrived b stamp s).stu.cabInput = s.stu.cabInput ∧
    (callArrived b stamp s).tpt.mask = s.tpt.mask ∧ (callArrived b stamp s).tpt.range = s.tpt.range ∧
    (callArrived b stamp s).tpt.port = s.tpt.port ∧ (callArrived b stamp s).pins = s.pins ∧
    (callArrived b stamp s).pending = s.pending := by
  generalize hb : callArrived b stamp s = t
  unfold callArrived at hb
  (repeat' split at hb) <;> subst hb <;> simp

@[simp] theorem ageContext_frame (i : Nat) (s : State) :
    (ageContext i s).time = s.time ∧ (ageContext i s).cfl = s.cfl ∧ (ageContext i s).rxc = s.rxc ∧ (ageContext i s).cau = s.cau ∧
    (ageContext i s).asu.rcq = s.asu.rcq ∧ (ageContext i s).asu.agingMs = s.asu.agingMs ∧ (ageContext i s).bpl.held = s.bpl.held ∧
    (ageContext i s).bpl.memory = s.bpl.memory ∧ (ageContext i s).odu = s.odu ∧ (ageContext i s).tmu = s.tmu ∧
    (ageContext i s).stu = s.stu ∧ (ageContext i s).tpt.mask = s.tpt.mask ∧ (ageContext i s).tpt.range = s.tpt.range ∧
    (ageContext i s).tpt.port = s.tpt.port ∧ (ageContext i s).pins = s.pins ∧ (ageContext i s).pending = s.pending := by
  generalize hb : ageContext i s = t
  unfold ageContext at hb
  (repeat' split at hb) <;> subst hb <;> simp

/-! #### Reception -/

@[simp] theorem routeHomeBurst_frame (b : Burst) (stamp : Stamp) (s : State) :
    (routeHomeBurst b stamp s).time = s.time ∧ (routeHomeBurst b stamp s).cfl = s.cfl ∧
    (routeHomeBurst b stamp s).rxc.reception = s.rxc.reception ∧ (routeHomeBurst b stamp s).cau.sense = s.cau.sense ∧
    (routeHomeBurst b stamp s).cau.occupancy = s.cau.occupancy ∧ (routeHomeBurst b stamp s).cau.average = s.cau.average ∧
    (routeHomeBurst b stamp s).cau.crowded = s.cau.crowded ∧ (routeHomeBurst b stamp s).cau.crowdedHeard = s.cau.crowdedHeard ∧
    (routeHomeBurst b stamp s).cau.paceSamples = s.cau.paceSamples ∧ (routeHomeBurst b stamp s).cau.onAir = s.cau.onAir ∧
    (routeHomeBurst b stamp s).cau.gateOpen = s.cau.gateOpen ∧ (routeHomeBurst b stamp s).cau.allstopRequest = s.cau.allstopRequest ∧
    (routeHomeBurst b stamp s).cau.generator = s.cau.generator ∧ (routeHomeBurst b stamp s).asu.agingMs = s.asu.agingMs ∧
    (routeHomeBurst b stamp s).bpl.held = s.bpl.held ∧ (routeHomeBurst b stamp s).odu.callNumber = s.odu.callNumber ∧
    (routeHomeBurst b stamp s).odu.nextSequence = s.odu.nextSequence ∧ (routeHomeBurst b stamp s).tmu.attached = s.tmu.attached ∧
    (routeHomeBurst b stamp s).tmu.leavePending = s.tmu.leavePending ∧ (routeHomeBurst b stamp s).tmu.homeTeam = s.tmu.homeTeam ∧
    (routeHomeBurst b stamp s).tmu.presenceRequest = s.tmu.presenceRequest ∧
    (routeHomeBurst b stamp s).stu.repeatCount = s.stu.repeatCount ∧ (routeHomeBurst b stamp s).stu.seriesTeam = s.stu.seriesTeam ∧
    (routeHomeBurst b stamp s).stu.cabInput = s.stu.cabInput ∧ (routeHomeBurst b stamp s).tpt.mask = s.tpt.mask ∧
    (routeHomeBurst b stamp s).tpt.range = s.tpt.range ∧ (routeHomeBurst b stamp s).tpt.port = s.tpt.port ∧
    (routeHomeBurst b stamp s).pins = s.pins ∧ (routeHomeBurst b stamp s).pending = s.pending := by
  generalize hb : routeHomeBurst b stamp s = t
  unfold routeHomeBurst at hb
  (repeat' split at hb) <;> subst hb <;> simp

@[simp] theorem sortByTeam_frame (b : Burst) (stamp : Stamp) (s : State) :
    (sortByTeam b stamp s).time = s.time ∧ (sortByTeam b stamp s).cfl = s.cfl ∧
    (sortByTeam b stamp s).rxc.reception = s.rxc.reception ∧ (sortByTeam b stamp s).cau.sense = s.cau.sense ∧
    (sortByTeam b stamp s).cau.occupancy = s.cau.occupancy ∧ (sortByTeam b stamp s).cau.average = s.cau.average ∧
    (sortByTeam b stamp s).cau.crowded = s.cau.crowded ∧ (sortByTeam b stamp s).cau.crowdedHeard = s.cau.crowdedHeard ∧
    (sortByTeam b stamp s).cau.paceSamples = s.cau.paceSamples ∧ (sortByTeam b stamp s).cau.onAir = s.cau.onAir ∧
    (sortByTeam b stamp s).cau.gateOpen = s.cau.gateOpen ∧ (sortByTeam b stamp s).cau.allstopRequest = s.cau.allstopRequest ∧
    (sortByTeam b stamp s).cau.generator = s.cau.generator ∧ (sortByTeam b stamp s).asu.agingMs = s.asu.agingMs ∧
    (sortByTeam b stamp s).bpl.held = s.bpl.held ∧ (sortByTeam b stamp s).odu.callNumber = s.odu.callNumber ∧
    (sortByTeam b stamp s).odu.nextSequence = s.odu.nextSequence ∧ (sortByTeam b stamp s).tmu.attached = s.tmu.attached ∧
    (sortByTeam b stamp s).tmu.leavePending = s.tmu.leavePending ∧ (sortByTeam b stamp s).tmu.homeTeam = s.tmu.homeTeam ∧
    (sortByTeam b stamp s).tmu.presenceRequest = s.tmu.presenceRequest ∧
    (sortByTeam b stamp s).stu.repeatCount = s.stu.repeatCount ∧
    (sortByTeam b stamp s).stu.seriesTeam = s.stu.seriesTeam ∧ (sortByTeam b stamp s).stu.cabInput = s.stu.cabInput ∧
    (sortByTeam b stamp s).tpt.mask = s.tpt.mask ∧ (sortByTeam b stamp s).tpt.range = s.tpt.range ∧
    (sortByTeam b stamp s).tpt.port = s.tpt.port ∧ (sortByTeam b stamp s).pins = s.pins ∧ (sortByTeam b stamp s).pending = s.pending := by
  generalize hb : sortByTeam b stamp s = t
  unfold sortByTeam at hb
  (repeat' split at hb) <;> subst hb <;> simp

@[simp] theorem goodBurst_frame (b : Burst) (stamp : Stamp) (s : State) :
    (goodBurst b stamp s).time = s.time ∧ (goodBurst b stamp s).cfl = s.cfl ∧ (goodBurst b stamp s).rxc.reception = s.rxc.reception ∧
    (goodBurst b stamp s).cau.sense = s.cau.sense ∧ (goodBurst b stamp s).cau.occupancy = s.cau.occupancy ∧
    (goodBurst b stamp s).cau.average = s.cau.average ∧ (goodBurst b stamp s).cau.crowded = s.cau.crowded ∧
    (goodBurst b stamp s).cau.paceSamples = s.cau.paceSamples ∧ (goodBurst b stamp s).cau.onAir = s.cau.onAir ∧
    (goodBurst b stamp s).cau.gateOpen = s.cau.gateOpen ∧ (goodBurst b stamp s).cau.allstopRequest = s.cau.allstopRequest ∧
    (goodBurst b stamp s).cau.generator = s.cau.generator ∧ (goodBurst b stamp s).asu.agingMs = s.asu.agingMs ∧
    (goodBurst b stamp s).bpl.held = s.bpl.held ∧ (goodBurst b stamp s).odu.callNumber = s.odu.callNumber ∧
    (goodBurst b stamp s).odu.nextSequence = s.odu.nextSequence ∧ (goodBurst b stamp s).tmu.attached = s.tmu.attached ∧
    (goodBurst b stamp s).tmu.leavePending = s.tmu.leavePending ∧ (goodBurst b stamp s).tmu.homeTeam = s.tmu.homeTeam ∧
    (goodBurst b stamp s).tmu.presenceRequest = s.tmu.presenceRequest ∧
    (goodBurst b stamp s).stu.repeatCount = s.stu.repeatCount ∧
    (goodBurst b stamp s).stu.seriesTeam = s.stu.seriesTeam ∧ (goodBurst b stamp s).stu.cabInput = s.stu.cabInput ∧
    (goodBurst b stamp s).tpt.mask = s.tpt.mask ∧ (goodBurst b stamp s).tpt.range = s.tpt.range ∧
    (goodBurst b stamp s).tpt.port = s.tpt.port ∧ (goodBurst b stamp s).pins = s.pins ∧ (goodBurst b stamp s).pending = s.pending := by
  generalize hb : goodBurst b stamp s = t
  unfold goodBurst at hb
  (repeat' (first | split at hb | (dsimp only at hb; split at hb))) <;> subst hb <;> simp

@[simp] theorem failedBurst_frame (b : Burst) (stamp : Stamp) (s : State) :
    (failedBurst b stamp s).time = s.time ∧ (failedBurst b stamp s).cfl = s.cfl ∧
    (failedBurst b stamp s).rxc.reception = s.rxc.reception ∧ (failedBurst b stamp s).cau = s.cau ∧
    (failedBurst b stamp s).asu = s.asu ∧ (failedBurst b stamp s).bpl = s.bpl ∧ (failedBurst b stamp s).odu = s.odu ∧
    (failedBurst b stamp s).tmu = s.tmu ∧ (failedBurst b stamp s).stu.repeatCount = s.stu.repeatCount ∧
    (failedBurst b stamp s).stu.seriesTeam = s.stu.seriesTeam ∧ (failedBurst b stamp s).stu.cabInput = s.stu.cabInput ∧
    (failedBurst b stamp s).tpt.mask = s.tpt.mask ∧ (failedBurst b stamp s).tpt.range = s.tpt.range ∧
    (failedBurst b stamp s).tpt.port = s.tpt.port ∧ (failedBurst b stamp s).pins = s.pins ∧
    (failedBurst b stamp s).pending = s.pending := by
  generalize hb : failedBurst b stamp s = t
  unfold failedBurst at hb
  (repeat' split at hb) <;> subst hb <;> simp

@[simp] theorem classify_frame (octets : List Byte) (stamp : Stamp) (s : State) :
    (classify octets stamp s).time = s.time ∧ (classify octets stamp s).cfl = s.cfl ∧
    (classify octets stamp s).cau.sense = s.cau.sense ∧ (classify octets stamp s).cau.occupancy = s.cau.occupancy ∧
    (classify octets stamp s).cau.average = s.cau.average ∧ (classify octets stamp s).cau.crowded = s.cau.crowded ∧
    (classify octets stamp s).cau.paceSamples = s.cau.paceSamples ∧ (classify octets stamp s).cau.onAir = s.cau.onAir ∧
    (classify octets stamp s).cau.gateOpen = s.cau.gateOpen ∧ (classify octets stamp s).cau.allstopRequest = s.cau.allstopRequest ∧
    (classify octets stamp s).cau.generator = s.cau.generator ∧ (classify octets stamp s).asu.agingMs = s.asu.agingMs ∧
    (classify octets stamp s).bpl.held = s.bpl.held ∧ (classify octets stamp s).odu.callNumber = s.odu.callNumber ∧
    (classify octets stamp s).odu.nextSequence = s.odu.nextSequence ∧ (classify octets stamp s).tmu.attached = s.tmu.attached ∧
    (classify octets stamp s).tmu.leavePending = s.tmu.leavePending ∧ (classify octets stamp s).tmu.homeTeam = s.tmu.homeTeam ∧
    (classify octets stamp s).tmu.presenceRequest = s.tmu.presenceRequest ∧
    (classify octets stamp s).stu.repeatCount = s.stu.repeatCount ∧ (classify octets stamp s).stu.seriesTeam = s.stu.seriesTeam ∧
    (classify octets stamp s).stu.cabInput = s.stu.cabInput ∧ (classify octets stamp s).tpt.mask = s.tpt.mask ∧
    (classify octets stamp s).tpt.range = s.tpt.range ∧ (classify octets stamp s).tpt.port = s.tpt.port ∧
    (classify octets stamp s).pins = s.pins ∧ (classify octets stamp s).pending = s.pending := by
  generalize hb : classify octets stamp s = t
  unfold classify at hb
  (repeat' split at hb) <;> subst hb <;> simp

@[simp] theorem syncTaken_frame (s : State) :
    (syncTaken s).time = s.time ∧ (syncTaken s).cfl = s.cfl ∧ (syncTaken s).cau = s.cau ∧ (syncTaken s).asu = s.asu ∧
    (syncTaken s).bpl = s.bpl ∧ (syncTaken s).odu = s.odu ∧ (syncTaken s).tmu = s.tmu ∧ (syncTaken s).stu = s.stu ∧
    (syncTaken s).tpt = s.tpt ∧ (syncTaken s).pins = s.pins ∧ (syncTaken s).pending = s.pending := by
  generalize hb : syncTaken s = t
  unfold syncTaken at hb
  (repeat' split at hb) <;> subst hb <;> simp

/-! #### All-stop series and completions -/

@[simp] theorem startSeries_frame (team : Team) (s : State) :
    (startSeries team s).time = s.time ∧ (startSeries team s).cfl = s.cfl ∧ (startSeries team s).rxc.counts = s.rxc.counts ∧
    (startSeries team s).cau.sense = s.cau.sense ∧ (startSeries team s).cau.occupancy = s.cau.occupancy ∧
    (startSeries team s).cau.average = s.cau.average ∧ (startSeries team s).cau.crowded = s.cau.crowded ∧
    (startSeries team s).cau.crowdedHeard = s.cau.crowdedHeard ∧ (startSeries team s).cau.rate = s.cau.rate ∧
    (startSeries team s).cau.paceSamples = s.cau.paceSamples ∧ (startSeries team s).cau.gateOpen = s.cau.gateOpen ∧
    (startSeries team s).asu = s.asu ∧ (startSeries team s).bpl = s.bpl ∧ (startSeries team s).odu.rsq = s.odu.rsq ∧
    (startSeries team s).odu.callNumber = s.odu.callNumber ∧ (startSeries team s).odu.nextSequence = s.odu.nextSequence ∧
    (startSeries team s).odu.finishedSlots = s.odu.finishedSlots ∧ (startSeries team s).tmu.attached = s.tmu.attached ∧
    (startSeries team s).tmu.leavePending = s.tmu.leavePending ∧ (startSeries team s).tmu.homeTeam = s.tmu.homeTeam ∧
    (startSeries team s).tmu.peers = s.tmu.peers ∧ (startSeries team s).tmu.control = s.tmu.control ∧
    (startSeries team s).stu.causes = s.stu.causes ∧ (startSeries team s).stu.hold = s.stu.hold ∧
    (startSeries team s).stu.cabInput = s.stu.cabInput ∧ (startSeries team s).tpt = s.tpt ∧ (startSeries team s).pins = s.pins ∧
    (startSeries team s).pending = s.pending := by
  generalize hb : startSeries team s = t
  unfold startSeries at hb
  (repeat' split at hb) <;> subst hb <;> simp

@[simp] theorem allstopCompleted_frame (s : State) :
    (allstopCompleted s).time = s.time ∧ (allstopCompleted s).cfl = s.cfl ∧ (allstopCompleted s).rxc.counts = s.rxc.counts ∧
    (allstopCompleted s).cau.sense = s.cau.sense ∧ (allstopCompleted s).cau.occupancy = s.cau.occupancy ∧
    (allstopCompleted s).cau.average = s.cau.average ∧ (allstopCompleted s).cau.crowded = s.cau.crowded ∧
    (allstopCompleted s).cau.crowdedHeard = s.cau.crowdedHeard ∧ (allstopCompleted s).cau.rate = s.cau.rate ∧
    (allstopCompleted s).cau.paceSamples = s.cau.paceSamples ∧ (allstopCompleted s).cau.gateOpen = s.cau.gateOpen ∧
    (allstopCompleted s).asu = s.asu ∧ (allstopCompleted s).bpl = s.bpl ∧ (allstopCompleted s).odu.rsq = s.odu.rsq ∧
    (allstopCompleted s).odu.callNumber = s.odu.callNumber ∧ (allstopCompleted s).odu.nextSequence = s.odu.nextSequence ∧
    (allstopCompleted s).odu.finishedSlots = s.odu.finishedSlots ∧ (allstopCompleted s).tmu.attached = s.tmu.attached ∧
    (allstopCompleted s).tmu.leavePending = s.tmu.leavePending ∧ (allstopCompleted s).tmu.homeTeam = s.tmu.homeTeam ∧
    (allstopCompleted s).tmu.peers = s.tmu.peers ∧ (allstopCompleted s).tmu.control = s.tmu.control ∧
    (allstopCompleted s).stu.causes = s.stu.causes ∧ (allstopCompleted s).stu.hold = s.stu.hold ∧
    (allstopCompleted s).stu.cabInput = s.stu.cabInput ∧ (allstopCompleted s).tpt = s.tpt ∧ (allstopCompleted s).pins = s.pins ∧
    (allstopCompleted s).pending = s.pending := by
  generalize hb : allstopCompleted s = t
  unfold allstopCompleted at hb
  (repeat' split at hb) <;> subst hb <;> simp

@[simp] theorem gapCompleted_frame (s : State) :
    (gapCompleted s).time = s.time ∧ (gapCompleted s).cfl = s.cfl ∧ (gapCompleted s).rxc.counts = s.rxc.counts ∧
    (gapCompleted s).cau.sense = s.cau.sense ∧ (gapCompleted s).cau.occupancy = s.cau.occupancy ∧
    (gapCompleted s).cau.average = s.cau.average ∧ (gapCompleted s).cau.crowded = s.cau.crowded ∧
    (gapCompleted s).cau.crowdedHeard = s.cau.crowdedHeard ∧ (gapCompleted s).cau.rate = s.cau.rate ∧
    (gapCompleted s).cau.paceSamples = s.cau.paceSamples ∧ (gapCompleted s).cau.gateOpen = s.cau.gateOpen ∧
    (gapCompleted s).cau.allstopRequest = s.cau.allstopRequest ∧ (gapCompleted s).cau.generator = s.cau.generator ∧
    (gapCompleted s).asu = s.asu ∧ (gapCompleted s).bpl = s.bpl ∧ (gapCompleted s).odu.rsq = s.odu.rsq ∧
    (gapCompleted s).odu.callNumber = s.odu.callNumber ∧ (gapCompleted s).odu.nextSequence = s.odu.nextSequence ∧
    (gapCompleted s).odu.finishedSlots = s.odu.finishedSlots ∧ (gapCompleted s).tmu.attached = s.tmu.attached ∧
    (gapCompleted s).tmu.leavePending = s.tmu.leavePending ∧ (gapCompleted s).tmu.homeTeam = s.tmu.homeTeam ∧
    (gapCompleted s).tmu.peers = s.tmu.peers ∧ (gapCompleted s).tmu.control = s.tmu.control ∧ (gapCompleted s).stu = s.stu ∧
    (gapCompleted s).tpt = s.tpt ∧ (gapCompleted s).pins = s.pins ∧ (gapCompleted s).pending = s.pending := by
  generalize hb : gapCompleted s = t
  unfold gapCompleted at hb
  (repeat' split at hb) <;> subst hb <;> simp

@[simp] theorem slotCompleted_frame (s : State) :
    (slotCompleted s).time = s.time ∧ (slotCompleted s).cfl = s.cfl ∧ (slotCompleted s).rxc.counts = s.rxc.counts ∧
    (slotCompleted s).cau.sense = s.cau.sense ∧ (slotCompleted s).cau.occupancy = s.cau.occupancy ∧
    (slotCompleted s).cau.average = s.cau.average ∧ (slotCompleted s).cau.crowded = s.cau.crowded ∧
    (slotCompleted s).cau.crowdedHeard = s.cau.crowdedHeard ∧ (slotCompleted s).cau.rate = s.cau.rate ∧
    (slotCompleted s).cau.paceSamples = s.cau.paceSamples ∧ (slotCompleted s).cau.gateOpen = s.cau.gateOpen ∧
    (slotCompleted s).cau.allstopRequest = s.cau.allstopRequest ∧ (slotCompleted s).cau.generator = s.cau.generator ∧
    (slotCompleted s).asu = s.asu ∧ (slotCompleted s).bpl = s.bpl ∧ (slotCompleted s).odu.rsq = s.odu.rsq ∧
    (slotCompleted s).odu.callNumber = s.odu.callNumber ∧ (slotCompleted s).odu.nextSequence = s.odu.nextSequence ∧
    (slotCompleted s).odu.finishedSlots = s.odu.finishedSlots ∧ (slotCompleted s).tmu.attached = s.tmu.attached ∧
    (slotCompleted s).tmu.leavePending = s.tmu.leavePending ∧ (slotCompleted s).tmu.homeTeam = s.tmu.homeTeam ∧
    (slotCompleted s).tmu.peers = s.tmu.peers ∧ (slotCompleted s).tmu.control = s.tmu.control ∧ (slotCompleted s).stu = s.stu ∧
    (slotCompleted s).tpt = s.tpt ∧ (slotCompleted s).pins = s.pins ∧ (slotCompleted s).pending = s.pending := by
  generalize hb : slotCompleted s = t
  unfold slotCompleted at hb
  (repeat' (first | split at hb | (dsimp only at hb; split at hb))) <;> subst hb <;> simp

@[simp] theorem forceExpired_frame (s : State) :
    (forceExpired s).time = s.time ∧ (forceExpired s).cfl = s.cfl ∧ (forceExpired s).rxc.counts = s.rxc.counts ∧
    (forceExpired s).cau.sense = s.cau.sense ∧ (forceExpired s).cau.occupancy = s.cau.occupancy ∧
    (forceExpired s).cau.average = s.cau.average ∧ (forceExpired s).cau.crowded = s.cau.crowded ∧
    (forceExpired s).cau.crowdedHeard = s.cau.crowdedHeard ∧ (forceExpired s).cau.rate = s.cau.rate ∧
    (forceExpired s).cau.paceSamples = s.cau.paceSamples ∧ (forceExpired s).cau.gateOpen = s.cau.gateOpen ∧
    (forceExpired s).cau.allstopRequest = s.cau.allstopRequest ∧ (forceExpired s).cau.generator = s.cau.generator ∧
    (forceExpired s).asu = s.asu ∧ (forceExpired s).bpl = s.bpl ∧ (forceExpired s).odu.rsq = s.odu.rsq ∧
    (forceExpired s).odu.callNumber = s.odu.callNumber ∧ (forceExpired s).odu.nextSequence = s.odu.nextSequence ∧
    (forceExpired s).odu.finishedSlots = s.odu.finishedSlots ∧ (forceExpired s).tmu.attached = s.tmu.attached ∧
    (forceExpired s).tmu.leavePending = s.tmu.leavePending ∧ (forceExpired s).tmu.homeTeam = s.tmu.homeTeam ∧
    (forceExpired s).tmu.peers = s.tmu.peers ∧ (forceExpired s).tmu.control = s.tmu.control ∧ (forceExpired s).stu = s.stu ∧
    (forceExpired s).tpt = s.tpt ∧ (forceExpired s).pins = s.pins ∧ (forceExpired s).pending = s.pending := by
  generalize hb : forceExpired s = t
  unfold forceExpired at hb
  (repeat' split at hb) <;> subst hb <;> simp

@[simp] theorem reportCompletion_frame (source : Source) (s : State) :
    (reportCompletion source s).time = s.time ∧ (reportCompletion source s).cfl = s.cfl ∧
    (reportCompletion source s).rxc.counts = s.rxc.counts ∧ (reportCompletion source s).cau.sense = s.cau.sense ∧
    (reportCompletion source s).cau.occupancy = s.cau.occupancy ∧ (reportCompletion source s).cau.average = s.cau.average ∧
    (reportCompletion source s).cau.crowded = s.cau.crowded ∧ (reportCompletion source s).cau.crowdedHeard = s.cau.crowdedHeard ∧
    (reportCompletion source s).cau.rate = s.cau.rate ∧ (reportCompletion source s).cau.paceSamples = s.cau.paceSamples ∧
    (reportCompletion source s).asu.rcq = s.asu.rcq ∧ (reportCompletion source s).asu.exq = s.asu.exq ∧
    (reportCompletion source s).asu.agingMs = s.asu.agingMs ∧ (reportCompletion source s).bpl.held = s.bpl.held ∧
    (reportCompletion source s).bpl.memory = s.bpl.memory ∧ (reportCompletion source s).odu.callNumber = s.odu.callNumber ∧
    (reportCompletion source s).odu.nextSequence = s.odu.nextSequence ∧ (reportCompletion source s).tmu.homeTeam = s.tmu.homeTeam ∧
    (reportCompletion source s).stu.hold = s.stu.hold ∧ (reportCompletion source s).stu.cabInput = s.stu.cabInput ∧
    (reportCompletion source s).tpt.mask = s.tpt.mask ∧ (reportCompletion source s).tpt.range = s.tpt.range ∧
    (reportCompletion source s).tpt.port = s.tpt.port ∧ (reportCompletion source s).pins = s.pins ∧
    (reportCompletion source s).pending = s.pending := by
  generalize hb : reportCompletion source s = t
  unfold reportCompletion at hb
  (repeat' split at hb) <;> subst hb <;> simp

@[simp] theorem leaveOnAir_frame (s : State) :
    (leaveOnAir s).time = s.time ∧ (leaveOnAir s).cfl = s.cfl ∧ (leaveOnAir s).rxc.counts = s.rxc.counts ∧
    (leaveOnAir s).cau.sense = s.cau.sense ∧ (leaveOnAir s).cau.occupancy = s.cau.occupancy ∧
    (leaveOnAir s).cau.average = s.cau.average ∧ (leaveOnAir s).cau.crowded = s.cau.crowded ∧
    (leaveOnAir s).cau.crowdedHeard = s.cau.crowdedHeard ∧ (leaveOnAir s).cau.rate = s.cau.rate ∧
    (leaveOnAir s).cau.paceSamples = s.cau.paceSamples ∧ (leaveOnAir s).cau.gateOpen = s.cau.gateOpen ∧
    (leaveOnAir s).cau.allstopRequest = s.cau.allstopRequest ∧ (leaveOnAir s).cau.generator = s.cau.generator ∧
    (leaveOnAir s).asu = s.asu ∧ (leaveOnAir s).bpl = s.bpl ∧ (leaveOnAir s).odu.rsq = s.odu.rsq ∧
    (leaveOnAir s).odu.callNumber = s.odu.callNumber ∧ (leaveOnAir s).odu.nextSequence = s.odu.nextSequence ∧
    (leaveOnAir s).odu.finishedSlots = s.odu.finishedSlots ∧ (leaveOnAir s).tmu.attached = s.tmu.attached ∧
    (leaveOnAir s).tmu.leavePending = s.tmu.leavePending ∧ (leaveOnAir s).tmu.homeTeam = s.tmu.homeTeam ∧
    (leaveOnAir s).tmu.peers = s.tmu.peers ∧ (leaveOnAir s).tmu.control = s.tmu.control ∧ (leaveOnAir s).stu = s.stu ∧
    (leaveOnAir s).tpt = s.tpt ∧ (leaveOnAir s).pins = s.pins ∧ (leaveOnAir s).pending = s.pending := by
  generalize hb : leaveOnAir s = t
  unfold leaveOnAir at hb
  (repeat' split at hb) <;> subst hb <;> simp

@[simp] theorem onAirCompleted_frame (s : State) :
    (onAirCompleted s).time = s.time ∧ (onAirCompleted s).cfl = s.cfl ∧ (onAirCompleted s).rxc.counts = s.rxc.counts ∧
    (onAirCompleted s).cau.sense = s.cau.sense ∧ (onAirCompleted s).cau.occupancy = s.cau.occupancy ∧
    (onAirCompleted s).cau.average = s.cau.average ∧ (onAirCompleted s).cau.crowded = s.cau.crowded ∧
    (onAirCompleted s).cau.crowdedHeard = s.cau.crowdedHeard ∧ (onAirCompleted s).cau.rate = s.cau.rate ∧
    (onAirCompleted s).cau.paceSamples = s.cau.paceSamples ∧ (onAirCompleted s).asu.rcq = s.asu.rcq ∧
    (onAirCompleted s).asu.exq = s.asu.exq ∧ (onAirCompleted s).asu.agingMs = s.asu.agingMs ∧
    (onAirCompleted s).bpl.held = s.bpl.held ∧ (onAirCompleted s).bpl.memory = s.bpl.memory ∧
    (onAirCompleted s).odu.callNumber = s.odu.callNumber ∧ (onAirCompleted s).odu.nextSequence = s.odu.nextSequence ∧
    (onAirCompleted s).tmu.homeTeam = s.tmu.homeTeam ∧ (onAirCompleted s).stu.hold = s.stu.hold ∧
    (onAirCompleted s).stu.cabInput = s.stu.cabInput ∧ (onAirCompleted s).tpt.mask = s.tpt.mask ∧
    (onAirCompleted s).tpt.range = s.tpt.range ∧ (onAirCompleted s).tpt.port = s.tpt.port ∧ (onAirCompleted s).pins = s.pins ∧
    (onAirCompleted s).pending = s.pending := by
  generalize hb : onAirCompleted s = t
  unfold onAirCompleted at hb
  (repeat' split at hb) <;> subst hb <;> simp

end Sys2Proof.Machine
end

