-- ==== Sys2Proof/Laws/Meanings.lean ====
section
/-! SUPPORT. What each meaning answers: the effect where the command is taken, the state unchanged where it is not; and what a port
command's own rule leaves. -/

namespace Sys2Proof.Machine

/-! ### Events -/

theorem execReset_next (cause : ResetCause) {s t : State} (h : execReset cause s = .next t) :
    (¬(s.cfl.part = .configuring ∧ s.cfl.resetHeld = true)) ∧ t = drivePins (resetTaken s) ∨ (s.cfl.part = .configuring ∧ s.cfl.resetHeld = true) ∧ t = s := by
  unfold execReset at h
  split at h <;> simp_all [taken, notTaken]

theorem execResetEnd_next {s t : State} (h : execResetEnd s = .next t) :
    (s.cfl.part = .configuring ∧ s.cfl.resetHeld = true) ∧ t = drivePins (beginLoad s) ∨ ¬(s.cfl.part = .configuring ∧ s.cfl.resetHeld = true) ∧ t = s := by
  unfold execResetEnd at h
  split at h <;> simp_all [taken, notTaken]

theorem execConfigOctetRead_next (octet : Byte) {s t : State} (h : execConfigOctetRead octet s = .next t) :
    (loading s = true) ∧ t = drivePins (arbitrate (octetRead octet s)) ∨ ¬(loading s = true) ∧ t = s := by
  unfold execConfigOctetRead at h
  split at h <;> simp_all [taken, takenAndArbitrated, notTaken]

theorem execNoMemory_next {s t : State} (h : execNoMemory s = .next t) :
    (loading s = true) ∧ t = drivePins (endLoadFault .noMemory s) ∨ ¬(loading s = true) ∧ t = s := by
  unfold execNoMemory at h
  split at h <;> simp_all [taken, notTaken]

theorem execBurstSync_next {s t : State} (h : execBurstSync s = .next t) :
    (running s = true ∧ s.cau.access ≠ .onAir) ∧ t = drivePins (syncTaken s) ∨ ¬(running s = true ∧ s.cau.access ≠ .onAir) ∧ t = s := by
  unfold execBurstSync at h
  split at h <;> simp_all [taken, notTaken]

theorem execShortBurst_next {s t : State} (h : execShortBurst s = .next t) :
    (running s = true ∧ s.rxc.reception.isSome = true) ∧ t = drivePins (countCheckFailure { s with rxc.reception := none }) ∨ ¬(running s = true ∧ s.rxc.reception.isSome = true) ∧ t = s := by
  unfold execShortBurst at h
  split at h <;> simp_all [taken, notTaken]

theorem execLevelSample_next (level : Level) {s t : State} (h : execLevelSample level s = .next t) :
    (running s = true ∧ sampleWaits s = false) ∧ t = drivePins ({ s with cau := sampled s.config level s.rxc.reception.isSome s.cau }) ∨ ¬(running s = true ∧ sampleWaits s = false) ∧ t = s := by
  unfold execLevelSample at h
  split at h <;> simp_all [taken, notTaken]

theorem execPaceTimerExpiry_next {s t : State} (h : execPaceTimerExpiry s = .next t) :
    (paceDue s = true) ∧ t = drivePins (arbitrate { s with cau := paceExpired s.config s.cau }) ∨ ¬(paceDue s = true) ∧ t = s := by
  unfold execPaceTimerExpiry at h
  split at h <;> simp_all [taken, takenAndArbitrated, notTaken]

theorem execGapComplete_next {s t : State} (h : execGapComplete s = .next t) :
    (gapDue s = true) ∧ t = drivePins (arbitrate (gapCompleted s)) ∨ ¬(gapDue s = true) ∧ t = s := by
  unfold execGapComplete at h
  split at h <;> simp_all [taken, takenAndArbitrated, notTaken]

theorem execSlotComplete_next {s t : State} (h : execSlotComplete s = .next t) :
    (slotDue s = true) ∧ t = drivePins (arbitrate (slotCompleted s)) ∨ ¬(slotDue s = true) ∧ t = s := by
  unfold execSlotComplete at h
  split at h <;> simp_all [taken, takenAndArbitrated, notTaken]

theorem execOnAirCompletion_next {s t : State} (h : execOnAirCompletion s = .next t) :
    (onAirDue s = true) ∧ t = drivePins (arbitrate (onAirCompleted s)) ∨ ¬(onAirDue s = true) ∧ t = s := by
  unfold execOnAirCompletion at h
  split at h <;> simp_all [taken, takenAndArbitrated, notTaken]

theorem execForceTimerExpiry_next {s t : State} (h : execForceTimerExpiry s = .next t) :
    (forceDue s = true) ∧ t = drivePins (arbitrate (forceExpired s)) ∨ ¬(forceDue s = true) ∧ t = s := by
  unfold execForceTimerExpiry at h
  split at h <;> simp_all [taken, takenAndArbitrated, notTaken]

theorem execReadbackWaitExpiry_next (slot : Fin 8) {s t : State} (h : execReadbackWaitExpiry slot s = .next t) :
    (waitDue slot.val s = true) ∧ t = drivePins (arbitrate (waitExpired slot.val s)) ∨ ¬(waitDue slot.val s = true) ∧ t = s := by
  unfold execReadbackWaitExpiry at h
  split at h <;> simp_all [taken, takenAndArbitrated, notTaken]

theorem execAgingTimerExpiry_next {s t : State} (h : execAgingTimerExpiry s = .next t) :
    (agingDue s = true) ∧ t = drivePins (ageContexts { s with asu.agingMs := s.asu.agingMs - 100 }) ∨ ¬(agingDue s = true) ∧ t = s := by
  unfold execAgingTimerExpiry at h
  split at h <;> simp_all [taken, notTaken]

theorem execSilenceTimerExpiry_next {s t : State} (h : execSilenceTimerExpiry s = .next t) :
    (silenceDue s = true) ∧ t = drivePins (silenceExpired { s with tmu.silenceMs := s.tmu.silenceMs - 100 }) ∨ ¬(silenceDue s = true) ∧ t = s := by
  unfold execSilenceTimerExpiry at h
  split at h <;> simp_all [taken, notTaken]

theorem execPresenceTimerExpiry_next {s t : State} (h : execPresenceTimerExpiry s = .next t) :
    (presenceDue s = true) ∧ t = drivePins (arbitrate (presenceExpired { s with tmu.presenceMs := s.tmu.presenceMs - 100 })) ∨ ¬(presenceDue s = true) ∧ t = s := by
  unfold execPresenceTimerExpiry at h
  split at h <;> simp_all [taken, takenAndArbitrated, notTaken]

theorem execOfferTimerExpiry_next {s t : State} (h : execOfferTimerExpiry s = .next t) :
    (offerDue s = true) ∧ t = drivePins (offerLapsed s) ∨ ¬(offerDue s = true) ∧ t = s := by
  unfold execOfferTimerExpiry at h
  split at h <;> simp_all [taken, notTaken]

theorem execHoldExpiry_next {s t : State} (h : execHoldExpiry s = .next t) :
    (holdDue s = true) ∧ t = drivePins ({ s with stu.hold := false }) ∨ ¬(holdDue s = true) ∧ t = s := by
  unfold execHoldExpiry at h
  split at h <;> simp_all [taken, notTaken]

theorem execBurstReceived_next {octets : List Byte} {s t : State} (h : execBurstReceived octets s = .next t) :
    (∃ stamp, running s = true ∧ s.rxc.reception = some stamp ∧ t = drivePins (arbitrate (classify octets stamp s))) ∨
      ((running s = false ∨ s.rxc.reception = none) ∧ t = s) := by
  unfold execBurstReceived at h
  cases hr : running s <;> cases hs : s.rxc.reception <;> simp_all [taken, takenAndArbitrated, notTaken]

theorem execEmergencyKeyEdge_next {s t : State} (h : execEmergencyKeyEdge s = .next t) :
    (s.stu.keyInput = true ∧ t = s) ∨
      (s.stu.keyInput = false ∧ running s = false ∧ t = drivePins { s with stu.keyInput := true }) ∨
      (s.stu.keyInput = false ∧ running s = true ∧
        t = drivePins (arbitrate (startSeries (teamToStop s) { s with stu.keyInput := true }))) := by
  unfold execEmergencyKeyEdge at h
  split at h
  · simp_all [notTaken]
  · have hr : running { s with stu.keyInput := true } = running s := rfl
    have ht : teamToStop { s with stu.keyInput := true } = teamToStop s := rfl
    dsimp only at h
    rw [hr, ht] at h
    split at h <;> simp_all [taken, takenAndArbitrated]

theorem execEmergencyKeyRelease_next {s t : State} (h : execEmergencyKeyRelease s = .next t) :
    (s.stu.keyInput = true ∧ t = drivePins { s with stu.keyInput := false }) ∨ (s.stu.keyInput = false ∧ t = s) := by
  unfold execEmergencyKeyRelease at h
  split at h <;> simp_all [taken, notTaken]

theorem execCabStopTransition_next {active : Bool} {s t : State} (h : execCabStopTransition active s = .next t) :
    (s.stu.cabInput = active ∧ t = s) ∨
      (s.stu.cabInput ≠ active ∧ running s = false ∧ t = drivePins { s with stu.cabInput := active }) ∨
      (s.stu.cabInput ≠ active ∧ running s = true ∧ t = drivePins (setCab active { s with stu.cabInput := active })) := by
  unfold execCabStopTransition at h
  split at h
  · simp_all [notTaken]
  · have hr : running { s with stu.cabInput := active } = running s := rfl
    dsimp only at h
    rw [hr] at h
    split at h <;> simp_all [taken]

theorem execSelectActive_next {s t : State} (h : execSelectActive s = .next t) :
    (s.tpt.port = .idle ∧ t = { s with tpt.port := .frame }) ∨ (s.tpt.port ≠ .idle ∧ t = s) := by
  unfold execSelectActive at h
  split at h <;> simp_all [notTaken]

theorem execSelectInactive_next {s t : State} (h : execSelectInactive s = .next t) :
    (s.tpt.port ≠ .idle ∧ t = { s with tpt.port := .idle }) ∨ (s.tpt.port = .idle ∧ t = s) := by
  unfold execSelectInactive at h
  split at h <;> simp_all [notTaken]

theorem execBadCommand_next {code : Byte} {f : Frame} {s t : State} (h : execBadCommand code f s = .next t) :
    (s.tpt.port = .frame ∧
      t = withReply code (if frameCheckGood code f then .badCommand else .badFrame) [] s) ∨ (s.tpt.port ≠ .frame ∧ t = s) := by
  unfold execBadCommand at h
  split at h <;> simp_all [notTaken]

/-! ### Port frames -/

@[simp] theorem withReply_frame (code : Byte) (answer : ReplyCode) (data : List Byte) (s : State) :
    (withReply code answer data s).time = s.time ∧ (withReply code answer data s).cfl = s.cfl ∧
    (withReply code answer data s).rxc = s.rxc ∧ (withReply code answer data s).cau = s.cau ∧
    (withReply code answer data s).asu = s.asu ∧ (withReply code answer data s).bpl = s.bpl ∧
    (withReply code answer data s).odu = s.odu ∧ (withReply code answer data s).tmu = s.tmu ∧
    (withReply code answer data s).stu = s.stu ∧ (withReply code answer data s).tpt.mask = s.tpt.mask ∧
    (withReply code answer data s).tpt.flags = s.tpt.flags ∧ (withReply code answer data s).tpt.range = s.tpt.range ∧
    (withReply code answer data s).pins = s.pins ∧ (withReply code answer data s).pending = s.pending := by
  simp [withReply]

/-- A frame is refused by the tests of R144, or goes to its own rule; without a frame under way it is not taken. -/
theorem answerFrame_next {c : PortCommand} {f : Frame} {own : State → PortResult} {s t : State}
    (h : answerFrame c f own s = .next t) :
    (s.tpt.port = .frame ∧ ∃ answer, frameRefusal c f s.cfl.part = some answer ∧ t = withReply c.code answer [] s) ∨
      (s.tpt.port = .frame ∧ frameRefusal c f s.cfl.part = none ∧
        t = withReply c.code (own s).answer (own s).data (own s).state) ∨
      (s.tpt.port ≠ .frame ∧ t = s) := by
  unfold answerFrame at h
  split at h
  · split at h <;> simp_all
  · simp_all [notTaken]

/-- A frame that goes to its own rule names a command that the part state takes further (R145). -/
theorem frameRefusal_none {c : PortCommand} {f : Frame} {part : PartState} (h : frameRefusal c f part = none) :
    frameCheckGood c.code f = true ∧ c.acceptedIn part = true ∧ f.params.length = c.requiredLength f.params := by
  unfold frameRefusal at h
  split at h
  · simp at h
  · split at h
    · simp at h
    · split at h <;> simp_all

/-! ### Own rules -/

/-- The state after a command's own rule: unchanged on a refusal or EMPTY, else the effect with the outputs following. -/
def leaves (r : PortResult) (s effect : State) : Prop :=
  r.state = s ∧ r.data = [] ∧ r.answer ≠ .ok ∨ r.answer = .ok ∧ r.state = drivePins effect

theorem refuse_leaves {answer : ReplyCode} (h : answer ≠ .ok) (s effect : State) : leaves (refuse answer s) s effect :=
  .inl ⟨rfl, rfl, h⟩

theorem accept_leaves (data : List Byte) (s effect : State) : leaves (accept data effect) s effect := .inr ⟨rfl, rfl⟩

theorem setMask_leaves (mask : Byte) (s : State) : leaves (setMask mask s) s { s with tpt.mask := Mask.ofByte mask } := by
  unfold setMask
  split
  · exact accept_leaves _ _ _
  · exact refuse_leaves (by decide) _ _

theorem submissionRefusal_ne_ok {sub : Submission} {s : State} {answer : ReplyCode} (h : submissionRefusal sub s = some answer) :
    answer ≠ .ok := by
  unfold submissionRefusal at h
  rintro rfl
  (repeat' split at h) <;> simp at h

theorem submitOrder_leaves (sub : Submission) (s : State) :
    ∃ slot, leaves (submitOrder sub s) s (arbitrate (acceptOrder slot sub s)) ∧
      ((submitOrder sub s).answer = .ok → submissionRefusal sub s = none ∧ firstEmpty s.odu.ool = some slot) := by
  unfold submitOrder
  cases hr : submissionRefusal sub s with
  | some answer =>
    have hne := submissionRefusal_ne_ok hr
    exact ⟨0, refuse_leaves hne _ _, fun h => absurd h hne⟩
  | none =>
    cases he : firstEmpty s.odu.ool with
    | some slot => exact ⟨slot, accept_leaves _ _ _, fun _ => ⟨rfl, rfl⟩⟩
    | none => exact ⟨0, refuse_leaves (by decide) _ _, fun h => by simp [refuse] at h⟩

/-- CANCEL ORDER acts on the order that stands in the slot, which is not FINISHED (R98, R99). -/
theorem cancelInSlot_leaves (slot : Byte) (s : State) :
    (cancelInSlot slot s).state = s ∧ (cancelInSlot slot s).answer ≠ .ok ∨
      ∃ o, orderAt slot.toNat s = some o ∧ o.state ≠ .finished ∧ (cancelInSlot slot s).answer = .ok ∧
        (cancelInSlot slot s).state = drivePins (arbitrate (cancelOrder slot.toNat o s)) := by
  unfold cancelInSlot
  split
  · exact .inl ⟨rfl, by simp [refuse]⟩
  · split
    · exact .inl ⟨rfl, by simp [refuse]⟩
    · rename_i o ho
      split
      · exact .inl ⟨rfl, by simp [refuse]⟩
      · rename_i hn
        rw [not_or] at hn
        exact .inr ⟨o, ho, hn.1, rfl, rfl⟩

theorem takeResult_leaves (s : State) : leaves (takeResult s) s (moveHeldResult { s with odu.rsq := s.odu.rsq.tail }) := by
  unfold takeResult
  split
  · exact refuse_leaves (by decide) _ _
  · rename_i hq
    simp only [hq, List.tail_cons]
    exact accept_leaves _ _ _

theorem takeException_leaves (s : State) : leaves (takeException s) s { s with asu.exq := s.asu.exq.tail } := by
  unfold takeException
  split
  · exact refuse_leaves (by decide) _ _
  · rename_i hq
    simp only [hq, List.tail_cons]
    exact accept_leaves _ _ _

/-- TAKE CALL moves the head record's buffers into a held call (R80). -/
theorem takeCall_leaves (s : State) :
    (takeCall s = refuse .empty s ∧ s.asu.rcq = []) ∨
      ∃ r rest, s.asu.rcq = r :: rest ∧ takeCall s = accept (r.octets ++ callData r s)
        { s with asu.rcq := rest, bpl.held := s.bpl.held ++ [{ handle := handleOf r.buffers, buffers := r.buffers }] } := by
  unfold takeCall
  split
  · rename_i hq
    exact .inl ⟨rfl, hq⟩
  · rename_i r rest hq
    exact .inr ⟨r, rest, hq, rfl⟩

theorem releaseCall_leaves (handle : Byte) (s : State) :
    (releaseCall handle s = refuse .notHeld s ∧ ∀ h ∈ s.bpl.held, namesHeld handle h = false) ∨
      ∃ h, h ∈ s.bpl.held ∧ namesHeld handle h = true ∧ s.bpl.held.find? (namesHeld handle) = some h ∧
        releaseCall handle s = accept [] (returnBuffers h.buffers { s with bpl.held := s.bpl.held.eraseP (namesHeld handle) }) := by
  unfold releaseCall
  split
  · rename_i hn
    exact .inl ⟨rfl, by simpa using hn⟩
  · rename_i h hs
    exact .inr ⟨h, List.mem_of_find?_eq_some hs, List.find?_some hs, hs, rfl⟩

theorem sendAllstop_leaves (scope : Byte) (s : State) :
    ∃ team, leaves (sendAllstop scope s) s (arbitrate (startSeries team s)) := by
  unfold sendAllstop
  split
  · exact ⟨_, accept_leaves _ _ _⟩
  · split
    · exact ⟨_, accept_leaves _ _ _⟩
    · exact ⟨0, refuse_leaves (by decide) _ _⟩

theorem joinTeam_leaves (team : Team) (s : State) : leaves (joinTeam team s) s (arbitrate (joined team s)) := by
  unfold joinTeam
  split
  · rename_i answer h
    refine refuse_leaves ?_ _ _
    unfold joinRefusal at h
    rintro rfl
    (repeat' split at h) <;> simp at h
  · exact accept_leaves _ _ _

theorem leaveTeam_leaves (s : State) :
    leaves (leaveTeam s) s (arbitrate (requestPresence .leaving { s with tmu.leavePending := true })) := by
  unfold leaveTeam
  split
  · rename_i answer h
    refine refuse_leaves ?_ _ _
    unfold leaveRefusal at h
    rintro rfl
    (repeat' split at h) <;> simp at h
  · exact accept_leaves _ _ _

/-- A range that NARROW RANGE puts in force lies within the one before (R153). -/
theorem narrowRefusal_none {low high : Team} {s : State} (h : narrowRefusal low high s = none) :
    running s = true ∧ 1 ≤ low.toNat ∧ low.toNat ≤ high.toNat ∧ high.toNat ≤ 250 ∧ s.config.tight = false ∧
      ∃ l u, s.tpt.range = some (l, u) ∧ l.toNat ≤ low.toNat ∧ high.toNat ≤ u.toNat := by
  unfold narrowRefusal at h
  (repeat' split at h) <;> simp_all

theorem narrowRange_leaves (low high : Team) (s : State) :
    leaves (narrowRange low high s) s { s with tpt.range := some (low, high) } ∧
      ((narrowRange low high s).answer = .ok → narrowRefusal low high s = none) := by
  unfold narrowRange
  split
  · rename_i answer h
    have hne : answer ≠ .ok := by
      unfold narrowRefusal at h
      rintro rfl
      (repeat' split at h) <;> simp at h
    exact ⟨refuse_leaves hne _ _, fun ha => absurd ha hne⟩
  · rename_i h
    exact ⟨accept_leaves _ _ _, fun _ => h⟩

/-! ### Data out -/

@[simp] theorem dataOut_idle (i : Nat) : dataOut .idle i = some idleOctet := rfl

@[simp] theorem dataOut_frame (i : Nat) : dataOut .frame i = some idleOctet := rfl

@[simp] theorem dataOut_reply (octets : List Byte) (i : Nat) : dataOut (.reply octets) i = octets[i]? := rfl

/-- An idle octet never equals the reply's start octet (R143). -/
theorem idleOctet_ne_startOctet : idleOctet ≠ startOctet := by decide

/-- A reply begins with the start octet (R143). -/
theorem dataOut_withReply_start (code : Byte) (answer : ReplyCode) (data : List Byte) (s : State) :
    dataOut (withReply code answer data s).tpt.port 0 = some startOctet := rfl

end Sys2Proof.Machine
end

