-- ==== Sys2Proof/Laws/Memory.lean ====
section
/-! SUPPORT. The laws of the buffer contents: every operation keeps the canonical form, a read after a write gives the octet written,
a write leaves every other octet alone. -/

namespace Sys2Proof.Machine

/-! ### Canonical form -/

theorem Memory.wfFrom_mono {low high : Nat} (hle : low ≤ high) {m : List Host.Cell} (h : Memory.wfFrom high m = true) :
    Memory.wfFrom low m = true := by
  cases m with
  | nil => rfl
  | cons cell rest =>
    obtain ⟨a, v⟩ := cell
    simp only [Memory.wfFrom, Bool.and_eq_true, decide_eq_true_eq] at h ⊢
    exact ⟨⟨by omega, h.1.2⟩, h.2⟩

theorem Memory.wfFrom_cell_append {low n : Nat} {v : Byte} {m : List Host.Cell} (hn : low ≤ n)
    (h : Memory.wfFrom (n + 1) m = true) : Memory.wfFrom low (Memory.cell n v ++ m) = true := by
  unfold Memory.cell
  split
  · exact Memory.wfFrom_mono (by omega) h
  · rename_i hv
    simp only [List.cons_append, List.nil_append, Memory.wfFrom, Bool.and_eq_true, decide_eq_true_eq]
    exact ⟨⟨hn, hv⟩, h⟩

theorem Memory.wfFrom_write {low n : Nat} (hn : low ≤ n) (v : Byte) {m : List Host.Cell} (h : Memory.wfFrom low m = true) :
    Memory.wfFrom low (Memory.write m n v) = true := by
  induction m generalizing low with
  | nil => simpa [Memory.write] using Memory.wfFrom_cell_append (m := []) hn (by rfl)
  | cons cell rest ih =>
    obtain ⟨a, w⟩ := cell
    simp only [Memory.wfFrom, Bool.and_eq_true, decide_eq_true_eq] at h
    unfold Memory.write
    split
    · apply Memory.wfFrom_cell_append hn
      simp only [Memory.wfFrom, Bool.and_eq_true, decide_eq_true_eq]
      exact ⟨⟨by omega, h.1.2⟩, h.2⟩
    · split
      · subst_vars
        exact Memory.wfFrom_cell_append hn h.2
      · simp only [Memory.wfFrom, Bool.and_eq_true, decide_eq_true_eq]
        exact ⟨h.1, ih (by omega) h.2⟩

/-- A write keeps the canonical form. -/
theorem Memory.wf_write {m : List Host.Cell} (n : Nat) (v : Byte) (h : Memory.wf m = true) : Memory.wf (Memory.write m n v) = true :=
  Memory.wfFrom_write (Nat.zero_le n) v h

theorem Memory.wf_writeAll {m : List Host.Cell} (n : Nat) (octets : List Byte) (h : Memory.wf m = true) :
    Memory.wf (Memory.writeAll m n octets) = true := by
  induction octets generalizing m n with
  | nil => exact h
  | cons v rest ih => exact ih (n + 1) (Memory.wf_write n v h)

theorem Memory.wf_writeBuffer {m : List Host.Cell} (b : BufferNumber) (body : List Byte) (h : Memory.wf m = true) :
    Memory.wf (writeBuffer m b body) = true := Memory.wf_writeAll _ _ h

theorem Memory.wf_writeBuffers {m : List Host.Cell} (buffers : List BufferNumber) (octets : List (List Byte))
    (h : Memory.wf m = true) : Memory.wf (writeBuffers m buffers octets) = true := by
  induction buffers generalizing m octets with
  | nil => cases octets <;> exact h
  | cons b rest ih =>
    cases octets with
    | nil => exact h
    | cons body more => exact ih more (Memory.wf_writeBuffer b body h)

/-- The contents after a reset have the canonical form. -/
theorem State.reset_memory_wf : Memory.wf State.reset.bpl.memory = true := rfl

/-! ### Which addresses are listed -/

theorem Memory.mem_write {m : List Host.Cell} {n : Nat} {v : Byte} {c : Host.Cell} (h : c ∈ Memory.write m n v) :
    c = (n, v) ∨ c ∈ m := by
  induction m with
  | nil =>
    simp only [Memory.write, Memory.cell] at h
    split at h <;> simp_all
  | cons cell rest ih =>
    obtain ⟨a, w⟩ := cell
    simp only [Memory.write, Memory.cell] at h
    split at h
    · split at h <;> simp_all
    · split at h
      · split at h
        · simp_all
        · simp only [List.cons_append, List.nil_append, List.mem_cons] at h ⊢
          tauto
      · simp only [List.mem_cons] at h ⊢
        tauto

/-- Writes below a bound leave every listed address below it. -/
theorem Memory.writeAll_below {m : List Host.Cell} {n bound : Nat} {octets : List Byte} (hn : n + octets.length ≤ bound)
    (h : ∀ c ∈ m, c.1 < bound) : ∀ c ∈ Memory.writeAll m n octets, c.1 < bound := by
  induction octets generalizing m n with
  | nil => exact h
  | cons v rest ih =>
    simp only [List.length_cons] at hn
    refine ih (by omega) ?_
    intro c hc
    rcases Memory.mem_write hc with rfl | hm
    · simp only; omega
    · exact h c hm

theorem padTo_length (n : Nat) (octets : List Byte) : (padTo n octets).length = n := by simp [padTo]

theorem Memory.writeBuffer_below {m : List Host.Cell} (b : BufferNumber) (body : List Byte) (h : ∀ c ∈ m, c.1 < 2816) :
    ∀ c ∈ writeBuffer m b body, c.1 < 2816 := by
  apply Memory.writeAll_below _ h
  have := b.isLt
  simp only [padTo_length, bufferAddress]
  omega

theorem Memory.writeBuffers_below {m : List Host.Cell} (buffers : List BufferNumber) (octets : List (List Byte))
    (h : ∀ c ∈ m, c.1 < 2816) : ∀ c ∈ writeBuffers m buffers octets, c.1 < 2816 := by
  induction buffers generalizing m octets with
  | nil => cases octets <;> exact h
  | cons b rest ih =>
    cases octets with
    | nil => exact h
    | cons body more => exact ih more (Memory.writeBuffer_below b body h)

/-! ### Reads after writes -/

/-- An address below every listed one reads as an unlisted one. -/
theorem Memory.read_below {low n : Nat} (hn : n < low) {m : List Host.Cell} (h : Memory.wfFrom low m = true) :
    Memory.read m n = Memory.unlisted := by
  induction m generalizing low with
  | nil => rfl
  | cons cell rest ih =>
    obtain ⟨a, v⟩ := cell
    simp only [Memory.wfFrom, Bool.and_eq_true, decide_eq_true_eq] at h
    unfold Memory.read
    rw [if_neg (by omega)]
    exact ih (by omega) h.2

theorem Memory.read_cell_append_same {n : Nat} {v : Byte} {m : List Host.Cell} (h : Memory.wfFrom (n + 1) m = true) :
    Memory.read (Memory.cell n v ++ m) n = v := by
  unfold Memory.cell
  split
  · subst_vars
    exact Memory.read_below (Nat.lt_succ_self n) h
  · simp [Memory.read]

theorem Memory.read_write_same_from {low n : Nat} (hn : low ≤ n) (v : Byte) {m : List Host.Cell}
    (h : Memory.wfFrom low m = true) : Memory.read (Memory.write m n v) n = v := by
  induction m generalizing low with
  | nil => simpa [Memory.write] using Memory.read_cell_append_same (n := n) (v := v) (m := []) (by rfl)
  | cons cell rest ih =>
    obtain ⟨a, w⟩ := cell
    have hc := h
    simp only [Memory.wfFrom, Bool.and_eq_true, decide_eq_true_eq] at h
    unfold Memory.write
    split
    · apply Memory.read_cell_append_same
      simp only [Memory.wfFrom, Bool.and_eq_true, decide_eq_true_eq]
      exact ⟨⟨by omega, h.1.2⟩, h.2⟩
    · split
      · subst_vars
        exact Memory.read_cell_append_same h.2
      · unfold Memory.read
        rw [if_neg (by omega)]
        exact ih (low := a + 1) (by omega) h.2

/-- A read at the address written gives the octet written. -/
theorem Memory.read_write_same {m : List Host.Cell} (n : Nat) (v : Byte) (h : Memory.wf m = true) :
    Memory.read (Memory.write m n v) n = v := Memory.read_write_same_from (Nat.zero_le n) v h

theorem Memory.read_cell_append_other {n a : Nat} (hne : a ≠ n) (v : Byte) (m : List Host.Cell) :
    Memory.read (Memory.cell n v ++ m) a = Memory.read m a := by
  unfold Memory.cell
  split
  · rfl
  · simp [Memory.read, Ne.symm hne]

/-- A write leaves every other address as it reads. -/
theorem Memory.read_write_other {n a : Nat} (hne : a ≠ n) (v : Byte) (m : List Host.Cell) :
    Memory.read (Memory.write m n v) a = Memory.read m a := by
  induction m with
  | nil => simpa [Memory.write] using Memory.read_cell_append_other hne v []
  | cons cell rest ih =>
    obtain ⟨b, w⟩ := cell
    unfold Memory.write
    split
    · exact Memory.read_cell_append_other hne v _
    · split
      · subst_vars
        rw [Memory.read_cell_append_other hne]
        simp [Memory.read, Ne.symm hne]
      · simp only [Memory.read, ih]

/-- Octets written at rising addresses leave every address outside them as it reads. -/
theorem Memory.read_writeAll_outside {n a : Nat} (octets : List Byte) (h : a < n ∨ n + octets.length ≤ a) (m : List Host.Cell) :
    Memory.read (Memory.writeAll m n octets) a = Memory.read m a := by
  induction octets generalizing m n with
  | nil => rfl
  | cons v rest ih =>
    simp only [List.length_cons] at h
    rw [Memory.writeAll, ih (by omega), Memory.read_write_other (by omega)]

/-- Octets written at rising addresses are read back there. -/
theorem Memory.read_writeAll_inside {n i : Nat} {octets : List Byte} (hi : i < octets.length) {m : List Host.Cell}
    (h : Memory.wf m = true) : Memory.read (Memory.writeAll m n octets) (n + i) = octets[i] := by
  induction octets generalizing m n i with
  | nil => simp at hi
  | cons v rest ih =>
    rw [Memory.writeAll]
    cases i with
    | zero =>
      rw [Memory.read_writeAll_outside rest (by omega)]
      simpa using Memory.read_write_same n v h
    | succ j =>
      have hj : j < rest.length := by simpa using hi
      have := ih (n := n + 1) hj (Memory.wf_write n v h)
      rw [show n + (j + 1) = n + 1 + j by omega, this]
      simp

/-- A buffer reads as the body its taker wrote, filled up with 0 to 22 octets (R75). -/
theorem readBuffer_writeBuffer_same {m : List Host.Cell} (b : BufferNumber) (body : List Byte) (h : Memory.wf m = true) :
    readBuffer (writeBuffer m b body) b = padTo 22 body := by
  apply List.ext_getElem
  · simp [readBuffer, padTo_length]
  · intro i h1 h2
    have hi : i < (padTo 22 body).length := h2
    have := Memory.read_writeAll_inside (n := bufferAddress b 0) hi h
    simpa [readBuffer, writeBuffer, bufferAddress] using this

/-- A write to one buffer leaves every other buffer as it reads. -/
theorem readBuffer_writeBuffer_other {b b' : BufferNumber} (hne : b' ≠ b) (body : List Byte) (m : List Host.Cell) :
    readBuffer (writeBuffer m b body) b' = readBuffer m b' := by
  have hv : b'.val ≠ b.val := fun h => hne (Fin.ext h)
  unfold readBuffer writeBuffer
  apply List.map_congr_left
  intro i hi
  have hlt : i < 22 := by simpa using hi
  apply Memory.read_writeAll_outside
  simp only [padTo_length, bufferAddress]
  omega

/-- Writes to buffers outside a list leave the buffers of the list as they read. -/
theorem readBuffer_writeBuffers_other {b : BufferNumber} {buffers : List BufferNumber} (hb : b ∉ buffers)
    (octets : List (List Byte)) (m : List Host.Cell) : readBuffer (writeBuffers m buffers octets) b = readBuffer m b := by
  induction buffers generalizing m octets with
  | nil => cases octets <;> rfl
  | cons c rest ih =>
    simp only [List.mem_cons, not_or] at hb
    cases octets with
    | nil => rfl
    | cons body more => rw [writeBuffers, ih hb.2, readBuffer_writeBuffer_other hb.1]

end Sys2Proof.Machine
end

