-- ==== Sys2Proof/Laws/Slots.lean ====
section
/-! SUPPORT. What the list helpers answer: slots found, slots empty, slots written, fragment bodies, saturating counts. -/

namespace Sys2Proof.Machine

/-! ### Slots -/

theorem slotAt_set_same {α : Type} {slots : List (Option α)} {i : Nat} (h : i < slots.length) (x : Option α) :
    slotAt (slots.set i x) i = x := by simp [slotAt, List.getD, h]

theorem slotAt_set_other {α : Type} {slots : List (Option α)} {i j : Nat} (h : i ≠ j) (x : Option α) :
    slotAt (slots.set i x) j = slotAt slots j := by simp [slotAt, List.getD, h]

theorem slotAt_lt {α : Type} {slots : List (Option α)} {i : Nat} {a : α} (h : slotAt slots i = some a) : i < slots.length := by
  by_contra hn
  simp [slotAt, List.getD, List.getElem?_eq_none (Nat.le_of_not_lt hn)] at h

/-- A slot that is found is in use, satisfies the test, and is the first that does. -/
theorem findSlot_some {α : Type} {p : α → Bool} {slots : List (Option α)} {i : Nat} {a : α} (h : findSlot p slots = some (i, a)) :
    slotAt slots i = some a ∧ p a = true ∧ ∀ j < i, ∀ b, slotAt slots j = some b → p b = false := by
  induction slots generalizing i with
  | nil => simp [findSlot] at h
  | cons x rest ih =>
    cases x with
    | none =>
      simp only [findSlot, Option.map_eq_some_iff, Prod.mk.injEq, Prod.exists] at h
      obtain ⟨k, b, hk, rfl, rfl⟩ := h
      obtain ⟨h1, h2, h3⟩ := ih hk
      refine ⟨by simpa [slotAt] using h1, h2, ?_⟩
      intro j hj c hc
      cases j with
      | zero => simp [slotAt] at hc
      | succ j => exact h3 j (by omega) c (by simpa [slotAt] using hc)
    | some y =>
      simp only [findSlot] at h
      split at h
      · rename_i hy
        simp only [Option.some.injEq, Prod.mk.injEq] at h
        obtain ⟨rfl, rfl⟩ := h
        exact ⟨by simp [slotAt], hy, fun j hj => absurd hj (Nat.not_lt_zero j)⟩
      · rename_i hy
        simp only [Option.map_eq_some_iff, Prod.mk.injEq, Prod.exists] at h
        obtain ⟨k, b, hk, rfl, rfl⟩ := h
        obtain ⟨h1, h2, h3⟩ := ih hk
        refine ⟨by simpa [slotAt] using h1, h2, ?_⟩
        intro j hj c hc
        cases j with
        | zero =>
          simp only [slotAt, List.getD_cons_zero, Option.some.injEq] at hc
          subst hc
          simpa using hy
        | succ j => exact h3 j (by omega) c (by simpa [slotAt] using hc)

/-- When none is found, no slot in use satisfies the test. -/
theorem findSlot_none {α : Type} {p : α → Bool} {slots : List (Option α)} (h : findSlot p slots = none) {i : Nat} {a : α}
    (ha : slotAt slots i = some a) : p a = false := by
  induction slots generalizing i with
  | nil => simp [slotAt] at ha
  | cons x rest ih =>
    cases x with
    | none =>
      simp only [findSlot, Option.map_eq_none_iff] at h
      cases i with
      | zero => simp [slotAt] at ha
      | succ i => exact ih h (by simpa [slotAt] using ha)
    | some y =>
      simp only [findSlot] at h
      split at h
      · simp at h
      · rename_i hy
        cases i with
        | zero =>
          simp only [slotAt, List.getD_cons_zero, Option.some.injEq] at ha
          subst ha
          simpa using hy
        | succ i => exact ih (by simpa using h) (by simpa [slotAt] using ha)

/-- The empty slot found stands in the list, is empty, and every lower slot is in use. -/
theorem firstEmpty_some {α : Type} {slots : List (Option α)} {i : Nat} (h : firstEmpty slots = some i) :
    i < slots.length ∧ slotAt slots i = none ∧ ∀ j < i, (slotAt slots j).isSome = true := by
  induction slots generalizing i with
  | nil => simp [firstEmpty] at h
  | cons x rest ih =>
    cases x with
    | none =>
      simp only [firstEmpty, Option.some.injEq] at h
      subst h
      exact ⟨by simp, by simp [slotAt], fun j hj => absurd hj (Nat.not_lt_zero j)⟩
    | some y =>
      simp only [firstEmpty, Option.map_eq_some_iff] at h
      obtain ⟨k, hk, rfl⟩ := h
      obtain ⟨h1, h2, h3⟩ := ih hk
      refine ⟨by simpa using h1, by simpa [slotAt] using h2, ?_⟩
      intro j hj
      cases j with
      | zero => simp [slotAt]
      | succ j => simpa [slotAt] using h3 j (by omega)

/-- With no empty slot every slot is in use. -/
theorem firstEmpty_none {α : Type} {slots : List (Option α)} (h : firstEmpty slots = none) {i : Nat} (hi : i < slots.length) :
    (slotAt slots i).isSome = true := by
  induction slots generalizing i with
  | nil => simp at hi
  | cons x rest ih =>
    cases x with
    | none => simp [firstEmpty] at h
    | some y =>
      simp only [firstEmpty, Option.map_eq_none_iff] at h
      cases i with
      | zero => simp [slotAt]
      | succ i => simpa [slotAt] using ih h (by simpa using hi)

/-! ### Order slots -/

theorem orderAt_setSlot_same {slot : Nat} {s : State} (h : slot < s.odu.ool.length) (o : Option Order) :
    orderAt slot (setSlot slot o s) = o := slotAt_set_same h o

theorem orderAt_setSlot_other {slot other : Nat} (h : slot ≠ other) (o : Option Order) (s : State) :
    orderAt other (setSlot slot o s) = orderAt other s := slotAt_set_other h o

/-- The SENDING order found stands in its slot and is SENDING. -/
theorem sendingOrder_some {s : State} {slot : Nat} {o : Order} (h : sendingOrder s = some (slot, o)) :
    orderAt slot s = some o ∧ o.state = .sending := by
  obtain ⟨h1, h2, -⟩ := findSlot_some h
  exact ⟨h1, by simpa [isSending] using h2⟩

theorem sendingOrder_none {s : State} (h : sendingOrder s = none) {slot : Nat} {o : Order} (ho : orderAt slot s = some o) :
    o.state ≠ .sending := by simpa [isSending] using findSlot_none h ho

/-- R90: the order chosen stands in its slot, is QUEUED, and no QUEUED order is older. -/
theorem oldestQueuedFrom_some {n slot : Nat} {slots : List (Option Order)} {o : Order}
    (h : oldestQueuedFrom n slots = some (slot, o)) :
    n ≤ slot ∧ slotAt slots (slot - n) = some o ∧ o.state = .queued ∧
      ∀ i p, slotAt slots i = some p → p.state = .queued → o.sequence ≤ p.sequence := by
  induction slots generalizing n slot o with
  | nil => simp [oldestQueuedFrom] at h
  | cons x rest ih =>
    have shift : ∀ {m : Nat} {q : Order}, oldestQueuedFrom (n + 1) rest = some (m, q) →
        n ≤ m ∧ slotAt (x :: rest) (m - n) = some q ∧ q.state = .queued ∧
          ∀ i p, slotAt rest i = some p → p.state = .queued → q.sequence ≤ p.sequence := by
      intro m q hq
      obtain ⟨h1, h2, h3, h4⟩ := ih hq
      refine ⟨by omega, ?_, h3, h4⟩
      rw [show m - n = (m - (n + 1)) + 1 by omega]
      simpa [slotAt] using h2
    have none_queued : oldestQueuedFrom (n + 1) rest = none → ∀ i p, slotAt rest i = some p → p.state ≠ .queued := by
      clear ih shift h
      generalize n + 1 = k
      induction rest generalizing k with
      | nil => intro _ i p hp; simp [slotAt] at hp
      | cons y more ihm =>
        intro hk i p hp
        cases y with
        | none =>
          simp only [oldestQueuedFrom] at hk
          cases i with
          | zero => simp [slotAt] at hp
          | succ i => exact ihm (k + 1) hk i p (by simpa [slotAt] using hp)
        | some q =>
          simp only [oldestQueuedFrom] at hk
          split at hk
          · split at hk
            · split at hk <;> simp at hk
            · simp at hk
          · rename_i hq
            cases i with
            | zero =>
              simp only [slotAt, List.getD_cons_zero, Option.some.injEq] at hp
              subst hp
              exact hq
            | succ i => exact ihm (k + 1) hk i p (by simpa [slotAt] using hp)
    cases x with
    | none =>
      obtain ⟨h1, h2, h3, h4⟩ := shift (by simpa [oldestQueuedFrom] using h)
      refine ⟨h1, h2, h3, ?_⟩
      intro i p hp hq
      cases i with
      | zero => simp [slotAt] at hp
      | succ i => exact h4 i p (by simpa [slotAt] using hp) hq
    | some q =>
      simp only [oldestQueuedFrom] at h
      split at h
      · rename_i hq
        split at h
        · rename_i m p hbest
          obtain ⟨h1, h2, h3, h4⟩ := shift hbest
          split at h
          · rename_i hlt
            simp only [Option.some.injEq, Prod.mk.injEq] at h
            obtain ⟨rfl, rfl⟩ := h
            refine ⟨h1, h2, h3, ?_⟩
            intro i r hr hrq
            cases i with
            | zero =>
              simp only [slotAt, List.getD_cons_zero, Option.some.injEq] at hr
              subst hr
              omega
            | succ i => exact h4 i r (by simpa [slotAt] using hr) hrq
          · rename_i hge
            simp only [Option.some.injEq, Prod.mk.injEq] at h
            obtain ⟨rfl, rfl⟩ := h
            refine ⟨Nat.le_refl _, by simp [slotAt], hq, ?_⟩
            intro i r hr hrq
            cases i with
            | zero =>
              simp only [slotAt, List.getD_cons_zero, Option.some.injEq] at hr
              subst hr
              exact Nat.le_refl _
            | succ i =>
              have := h4 i r (by simpa [slotAt] using hr) hrq
              omega
        · rename_i hbest
          simp only [Option.some.injEq, Prod.mk.injEq] at h
          obtain ⟨rfl, rfl⟩ := h
          refine ⟨Nat.le_refl _, by simp [slotAt], hq, ?_⟩
          intro i r hr hrq
          cases i with
          | zero =>
            simp only [slotAt, List.getD_cons_zero, Option.some.injEq] at hr
            subst hr
            exact Nat.le_refl _
          | succ i => exact absurd hrq (none_queued hbest i r (by simpa [slotAt] using hr))
      · rename_i hq
        obtain ⟨h1, h2, h3, h4⟩ := shift h
        refine ⟨h1, h2, h3, ?_⟩
        intro i r hr hrq
        cases i with
        | zero =>
          simp only [slotAt, List.getD_cons_zero, Option.some.injEq] at hr
          subst hr
          exact absurd hrq hq
        | succ i => exact h4 i r (by simpa [slotAt] using hr) hrq

/-! ### Fragments and counts -/

/-- F(L) is 1..8 for every length that a call can have (R5). -/
theorem fragmentCount_range {length : Nat} (h : length ≤ 174) : 1 ≤ fragmentCount length ∧ fragmentCount length ≤ 8 := by
  unfold fragmentCount
  split <;> omega

theorem bodies_length (n : Nat) (octets : List Byte) : (bodies n octets).length = n := by
  induction n generalizing octets with
  | zero => rfl
  | succ n ih => simp [bodies, ih]

/-- A count goes up by one and stays at 65535 (R15). -/
theorem countUp_toNat (n : Word) : (countUp n).toNat = min 65535 (n.toNat + 1) := by
  unfold countUp
  split
  · subst_vars; rfl
  · rename_i h
    have hlt := n.isLt
    have hne : n.toNat ≠ 65535 := fun he => h (BitVec.eq_of_toNat_eq (by simpa using he))
    rw [BitVec.toNat_add]
    simp
    omega

end Sys2Proof.Machine
end

