-- ==== Sys2Proof/Laws/Operations.lean ====
section
/-! SUPPORT. What each shared operation can do: one lemma per operation, with all its cases. -/

namespace Sys2Proof.Machine

/-! ### Causes, exceptions, the pool -/

/-- R128: the set of a locomotive becomes the given one, with the flag if its membership changed; a portable's set stays. -/
theorem setCauses_cases (c : Causes) (s : State) :
    (isLocomotive s = true ∧ c ≠ s.stu.causes ∧ setCauses c s = { s with stu.causes := c, tpt.flags.causesChanged := true }) ∨
      ((isLocomotive s = false ∨ c = s.stu.causes) ∧ setCauses c s = s) := by
  by_cases hl : isLocomotive s = true <;> by_cases hc : c = s.stu.causes <;> simp_all [setCauses]

theorem setCauses_causes (c : Causes) (s : State) :
    (setCauses c s).stu.causes = if isLocomotive s then c else s.stu.causes := by
  by_cases hl : isLocomotive s = true <;> by_cases hc : c = s.stu.causes <;> simp_all [setCauses]

/-- R131, R132: the causes after an honoured all-stop. -/
theorem honourAllstop_causes (stamp : Stamp) (s : State) :
    (honourAllstop stamp s).stu.causes = if isLocomotive s then { s.stu.causes with allstop := true } else s.stu.causes :=
  setCauses_causes _ s

theorem raiseException_cases (e : ExceptionEntry) (s : State) :
    (s.asu.exq.length < 16 ∧ raiseException e s = { s with asu.exq := s.asu.exq ++ [e] }) ∨
      (16 ≤ s.asu.exq.length ∧ raiseException e s = { s with tpt.flags.exqOverflow := true }) := by
  unfold raiseException
  split
  · exact .inl ⟨by assumption, rfl⟩
  · exact .inr ⟨by omega, rfl⟩

/-! ### The transmitter -/

/-- R45: the staging register stays as it is, or is filled from the highest ready class when it is empty. -/
theorem arbitrate_cases (s : State) :
    arbitrate s = s ∨ ∃ source, running s = true ∧ s.cau.staging = none ∧ readyClass s = some source ∧
      arbitrate s = stage source (noteChosen source s) := by
  unfold arbitrate
  split
  · rename_i h
    rw [Bool.and_eq_true, Option.isNone_iff_eq_none] at h
    split
    · rename_i source hr
      exact .inr ⟨source, h.1, h.2, hr, rfl⟩
    · exact .inl rfl
  · exact .inl rfl

/-- R45, R47: what is ready in each class. -/
theorem readyClass_some {s : State} {source : Source} (h : readyClass s = some source) :
    (∃ team, s.cau.allstopRequest = some team ∧ source = .allstop team) ∨
      (s.cau.allstopRequest = none ∧ s.odu.rbq ≠ [] ∧ source = .readback) ∨
      (s.cau.allstopRequest = none ∧ s.odu.rbq = [] ∧ ∃ flag, s.tmu.presenceRequest = some flag ∧ source = .presence flag) ∨
      (s.cau.allstopRequest = none ∧ s.odu.rbq = [] ∧ s.tmu.presenceRequest = none ∧
        ∃ slot index, readyFragment s = some (slot, index) ∧ source = .fragment slot index) := by
  unfold readyClass at h
  split at h
  · rename_i team ht
    exact .inl ⟨team, ht, by simpa using h.symm⟩
  · rename_i ht
    refine .inr ?_
    split at h
    · rename_i hq
      rw [List.isEmpty_iff] at hq
      refine .inr ?_
      split at h
      · rename_i flag hf
        exact .inl ⟨ht, hq, flag, hf, by simpa using h.symm⟩
      · rename_i hf
        simp only [Option.map_eq_some_iff, Prod.exists] at h
        obtain ⟨slot, index, hr, he⟩ := h
        exact .inr ⟨ht, hq, hf, slot, index, hr, he.symm⟩
    · rename_i hq
      exact .inl ⟨ht, by simpa using hq, by simpa using h.symm⟩

/-- R47: the fragment that class 4 offers. -/
theorem readyFragment_some {s : State} {slot index : Nat} (h : readyFragment s = some (slot, index)) :
    ∃ o, orderAt slot s = some o ∧ o.state = .sending ∧ o.place = .none ∧ o.next = index ∧ 256 ≤ s.cau.credit ∧
      s.cau.gateOpen = true := by
  unfold readyFragment at h
  split at h
  · rename_i n o hs
    split at h
    · rename_i hg
      simp only [Option.some.injEq, Prod.mk.injEq] at h
      obtain ⟨rfl, rfl⟩ := h
      obtain ⟨h1, h2⟩ := sendingOrder_some hs
      exact ⟨o, h1, h2, hg.1, rfl, hg.2.1, hg.2.2⟩
    · simp at h
  · simp at h

/-- R35, R42, R43, R51: what stands in the register after a staging. -/
theorem stage_staging (source : Source) (s : State) :
    ∃ force, (stage source s).cau.staging =
        some { burst := composed s source, source := source, window := windowOf s source,
               backoff := drawFrom (s.cau.generator.map advanceGenerator) (windowOf s source), force := force } ∧
      (force = .running 20 ∨ force = .none) := by
  unfold stage noteStaged setPlace chargeCredit
  refine ⟨match source with | .allstop _ => .running 20 | _ => .none, ?_, by cases source <;> simp⟩
  cases source <;> dsimp only <;> (repeat' split) <;> rfl

theorem stage_generator (source : Source) (s : State) :
    (stage source s).cau.generator = s.cau.generator.map advanceGenerator := by
  unfold stage noteStaged setPlace chargeCredit
  cases source <;> dsimp only <;> (repeat' split) <;> rfl

/-- R36: a staging moves IDLE to GAP and leaves every other access state. -/
theorem stage_access (source : Source) (s : State) :
    (stage source s).cau.access = if s.cau.access = .idle then .gap else s.cau.access := by
  unfold stage noteStaged setPlace chargeCredit
  by_cases h : s.cau.access = .idle <;> cases source <;> simp only [h, if_true, if_false] <;> (repeat' split) <;> simp_all

/-- R29, R32: only an order fragment is charged. -/
theorem stage_credit (source : Source) (s : State) :
    (stage source s).cau.credit = match source with | .fragment _ _ => s.cau.credit - 256 | _ => s.cau.credit := by
  unfold stage noteStaged setPlace chargeCredit
  by_cases h : s.cau.access = .idle <;> cases source <;> simp only [h, if_true, if_false] <;> (repeat' split) <;>
    simp_all [setSlot]

/-- R39: the staged burst stands in the on-air register and keying starts. -/
theorem goOnAir_cau {s : State} {st : Staged} (h : s.cau.staging = some st) :
    (goOnAir s).cau = { s.cau with
      staging := none, onAir := some { burst := st.burst, source := st.source }, onAirSamples := 0, access := .onAir,
      gapCount := 0, slotCount := 0 } := by
  unfold goOnAir leaveSource setPlace
  simp only [h]
  cases st.source <;> dsimp only <;> (repeat' split) <;> rfl

theorem goOnAir_empty {s : State} (h : s.cau.staging = none) : goOnAir s = s := by simp [goOnAir, h]

/-- R50: nothing staged is meant, or the staged burst goes back to its source. -/
theorem withdraw_cases (meant : Source → Bool) (s : State) :
    withdraw meant s = s ∨
      ∃ st, s.cau.staging = some st ∧ meant st.source = true ∧ withdraw meant s = giveBack st.source (emptyStaging s) := by
  unfold withdraw
  split
  · rename_i st hst
    split
    · rename_i hm
      exact .inr ⟨st, hst, hm, rfl⟩
    · exact .inl rfl
  · exact .inl rfl

/-- R36: after a withdrawal in GAP or BACKOFF the state is IDLE with its counts discarded. -/
theorem emptyStaging_cau (s : State) :
    (emptyStaging s).cau.staging = none ∧
      ((s.cau.access = .gap ∨ s.cau.access = .backoff) → (emptyStaging s).cau.access = .idle ∧
        (emptyStaging s).cau.gapCount = 0 ∧ (emptyStaging s).cau.slotCount = 0) ∧
      (¬(s.cau.access = .gap ∨ s.cau.access = .backoff) → (emptyStaging s).cau = { s.cau with staging := none }) := by
  unfold emptyStaging
  dsimp only
  split <;> simp_all

/-! ### Orders -/

theorem promote_cases (s : State) :
    promote s = s ∨ ∃ slot o, sendingOrder s = none ∧ oldestQueued s = some (slot, o) ∧
      promote s = setSlot slot (some (becomeSending o s)) s := by
  unfold promote
  split
  · exact .inl rfl
  · rename_i hn
    split
    · rename_i slot o ho
      exact .inr ⟨slot, o, hn, ho, rfl⟩
    · exact .inl rfl

/-- R101 step 4, R103: the result finds room and the slot empties, or the order is held FINISHED. -/
theorem offerResult_cases (slot : Nat) (o : Order) (s : State) :
    (s.odu.rsq.length < 8 ∧ offerResult slot o s = setSlot slot none { s with odu.rsq := s.odu.rsq ++ [resultOf slot o] }) ∨
      (8 ≤ s.odu.rsq.length ∧
        offerResult slot o s = setSlot slot (some o) { s with odu.finishedSlots := s.odu.finishedSlots ++ [slot] }) := by
  unfold offerResult
  split
  · exact .inl ⟨by assumption, rfl⟩
  · exact .inr ⟨by omega, rfl⟩

/-- R101: an order that stands in the slot finishes. -/
theorem finishOrder_of_order {slot : Nat} {o : Order} {s : State} (h : orderAt slot s = some o) (outcome : OrderOutcome) :
    ∃ w, (w = s ∨ w = withdraw (isFragmentOf slot) s ∧ o.place = .staged) ∧
      finishOrder slot outcome s = promote (offerResult slot (finished o outcome s.time) (returnBuffers o.buffers w)) := by
  unfold finishOrder
  simp only [h]
  split
  · rename_i hp
    exact ⟨_, .inr ⟨rfl, hp⟩, by simp⟩
  · exact ⟨s, .inl rfl, by simp⟩

/-- R103: the result that waits longest moves in, or none waits. -/
theorem moveHeldResult_cases (s : State) :
    (s.odu.finishedSlots = [] ∧ moveHeldResult s = s) ∨
      ∃ slot rest, s.odu.finishedSlots = slot :: rest ∧
        ((orderAt slot s = none ∧ moveHeldResult s = { s with odu.finishedSlots := rest }) ∨
          ∃ o, orderAt slot s = some o ∧ moveHeldResult s =
            setSlot slot none { s with odu.finishedSlots := rest, odu.rsq := s.odu.rsq ++ [resultOf slot o] }) := by
  unfold moveHeldResult
  split
  · rename_i hf
    exact .inl ⟨hf, rfl⟩
  · rename_i slot rest hf
    refine .inr ⟨slot, rest, hf, ?_⟩
    have ho : orderAt slot { s with odu.finishedSlots := rest } = orderAt slot s := rfl
    dsimp only
    rw [ho]
    split
    · rename_i o h
      exact .inr ⟨o, h, rfl⟩
    · rename_i h
      exact .inl ⟨h, rfl⟩

/-- R104: an offer is dropped, or joins at the tail. -/
theorem offerReadback_cases (e : ReadbackEntry) (s : State) :
    offerReadback e s = s ∨
      (s.odu.rbq.length < 8 ∧ (∀ x ∈ s.odu.rbq, ¬(x.sender = e.sender ∧ x.callNumber = e.callNumber)) ∧
        offerReadback e s = { s with odu.rbq := s.odu.rbq ++ [e] }) := by
  unfold offerReadback
  split
  · exact .inl rfl
  · rename_i hn
    split
    · exact .inl rfl
    · refine .inr ⟨by omega, ?_, rfl⟩
      simpa using hn

/-! ### Peers and control -/

theorem findPeer_some {station : Station} {s : State} {p : Peer} (h : findPeer station s = some p) :
    p ∈ s.tmu.peers ∧ p.station = station :=
  ⟨List.mem_of_find?_eq_some h, by simpa using List.find?_some h⟩

theorem findPeer_none {station : Station} {s : State} (h : findPeer station s = none) : ∀ p ∈ s.tmu.peers, p.station ≠ station := by
  simpa [findPeer] using h

theorem mem_insertPeer {p q : Peer} {peers : List Peer} : q ∈ insertPeer p peers ↔ q = p ∨ q ∈ peers := by
  induction peers with
  | nil => simp [insertPeer]
  | cons x rest ih =>
    unfold insertPeer
    split
    · simp
    · simp only [List.mem_cons, ih]
      tauto

theorem insertPeer_length (p : Peer) (peers : List Peer) : (insertPeer p peers).length = peers.length + 1 := by
  induction peers with
  | nil => rfl
  | cons x rest ih =>
    unfold insertPeer
    split <;> simp [ih]

/-- R152: the table stays in ascending order of station number when a new station is entered. -/
theorem insertPeer_pairwise {p : Peer} {peers : List Peer} (hn : ∀ q ∈ peers, q.station ≠ p.station)
    (h : peers.Pairwise (fun a b => a.station.toNat < b.station.toNat)) :
    (insertPeer p peers).Pairwise (fun a b => a.station.toNat < b.station.toNat) := by
  induction peers with
  | nil => simp [insertPeer]
  | cons x rest ih =>
    rw [List.pairwise_cons] at h
    unfold insertPeer
    split
    · rename_i hlt
      rw [List.pairwise_cons]
      refine ⟨?_, List.pairwise_cons.mpr h⟩
      intro q hq
      rcases List.mem_cons.mp hq with rfl | hq
      · exact hlt
      · exact Nat.lt_trans hlt (h.1 q hq)
    · rename_i hge
      rw [List.pairwise_cons]
      refine ⟨?_, ih (fun q hq => hn q (List.mem_cons_of_mem _ hq)) h.2⟩
      intro q hq
      rcases mem_insertPeer.mp hq with rfl | hq
      · have hne : x.station.toNat ≠ q.station.toNat := fun he =>
          hn x List.mem_cons_self (BitVec.eq_of_toNat_eq he)
        omega
      · exact h.1 q hq

/-- R112: a new sender is entered, enters in the place of an evicted entry, or is not entered. -/
theorem enterPeer_cases (b : Burst) (stamp : Stamp) (s : State) :
    (s.tmu.peers.length < 16 ∧ enterPeer b stamp s = addPeer (newPeer b stamp) s) ∨
      (16 ≤ s.tmu.peers.length ∧ ∃ p, evictionCandidate s = some p ∧
        enterPeer b stamp s = addPeer (newPeer b stamp) (removePeer p.station s)) ∨
      (16 ≤ s.tmu.peers.length ∧ evictionCandidate s = none ∧
        enterPeer b stamp s = { s with tpt.flags.peerTableFull := true }) := by
  unfold enterPeer
  split
  · exact .inl ⟨by assumption, rfl⟩
  · rename_i hlen
    refine .inr ?_
    split
    · rename_i p hp
      exact .inl ⟨by omega, p, hp, rfl⟩
    · rename_i hn
      exact .inr ⟨by omega, hn, rfl⟩

theorem laterCandidate_mem {peers : List Peer} {best : Option Peer} {p : Peer} (h : peers.foldl laterCandidate best = some p) :
    best = some p ∨ p ∈ peers := by
  induction peers generalizing best with
  | nil => exact .inl h
  | cons q rest ih =>
    rcases ih h with hb | hm
    · unfold laterCandidate at hb
      split at hb
      · split at hb
        · right; simp_all
        · exact .inl hb
      · right; simp_all
    · exact .inr (List.mem_cons_of_mem _ hm)

/-- R112: an evicted entry stands in the table, is LOST, and is not the holder's on a locomotive. -/
theorem evictionCandidate_some {s : State} {p : Peer} (h : evictionCandidate s = some p) :
    p ∈ s.tmu.peers ∧ evictable s p = true := by
  rcases laterCandidate_mem h with h | h
  · simp at h
  · simpa using List.mem_filter.mp h

/-- R118: a locomotive becomes UNHELD with NO_HOLDER in its set; a portable has no control state. -/
theorem makeUnheld_cases (s : State) :
    (isLocomotive s = true ∧ (makeUnheld s).tmu = { s.tmu with control := .unheld } ∧
        (makeUnheld s).stu.causes = { s.stu.causes with noHolder := true }) ∨
      (isLocomotive s = false ∧ makeUnheld s = s) := by
  unfold makeUnheld
  split
  · rename_i hl
    refine .inl ⟨hl, by simp, ?_⟩
    have hl' : isLocomotive { s with tmu.control := .unheld } = true := hl
    simp [putNoHolder, setCauses_causes, hl']
  · rename_i hl
    exact .inr ⟨by simpa using hl, rfl⟩

/-! ### Contexts -/

theorem contextOf_some {sender : Station} {s : State} {i : Nat} {c : Context} (h : contextOf sender s = some (i, c)) :
    slotAt s.asu.contexts i = some c ∧ c.sender = sender := by
  obtain ⟨h1, h2, -⟩ := findSlot_some h
  exact ⟨h1, by simpa using h2⟩

theorem contextFor_some {sender : Station} {number : CallNumber} {s : State} {i : Nat} {c : Context}
    (h : contextFor sender number s = some (i, c)) :
    slotAt s.asu.contexts i = some c ∧ c.sender = sender ∧ c.callNumber = number := by
  obtain ⟨h1, h2, -⟩ := findSlot_some h
  exact ⟨h1, by simpa using h2⟩

theorem ageContext_cases (i : Nat) (s : State) :
    (slotAt s.asu.contexts i = none ∧ ageContext i s = s) ∨
      ∃ c, slotAt s.asu.contexts i = some c ∧
        ((agingLimit s.config ≤ c.age + 1 ∧ ageContext i s =
            abandon i c (raiseException (exceptionFor .agedOut c.sender c.callNumber c.next s.time) s)) ∨
          (c.age + 1 < agingLimit s.config ∧ ageContext i s = setContext i { c with age := c.age + 1 } s)) := by
  unfold ageContext
  split
  · rename_i hn
    exact .inl ⟨hn, rfl⟩
  · rename_i c hc
    refine .inr ⟨c, hc, ?_⟩
    split
    · rename_i hl
      exact .inl ⟨hl, rfl⟩
    · rename_i hl
      exact .inr ⟨by omega, rfl⟩

/-- Aging reaches contexts, EXQ, pool and flags only. -/
theorem ageContexts_frame (s : State) :
    (ageContexts s).time = s.time ∧ (ageContexts s).cfl = s.cfl ∧ (ageContexts s).rxc = s.rxc ∧ (ageContexts s).cau = s.cau ∧
    (ageContexts s).asu.rcq = s.asu.rcq ∧ (ageContexts s).asu.agingMs = s.asu.agingMs ∧ (ageContexts s).bpl.held = s.bpl.held ∧
    (ageContexts s).bpl.memory = s.bpl.memory ∧ (ageContexts s).odu = s.odu ∧ (ageContexts s).tmu = s.tmu ∧
    (ageContexts s).stu = s.stu ∧ (ageContexts s).tpt.mask = s.tpt.mask ∧ (ageContexts s).tpt.range = s.tpt.range ∧
    (ageContexts s).tpt.port = s.tpt.port ∧ (ageContexts s).pins = s.pins ∧ (ageContexts s).pending = s.pending := by
  unfold ageContexts
  generalize List.range s.asu.contexts.length = slots
  induction slots generalizing s with
  | nil => simp
  | cons i rest ih =>
    rw [List.foldl_cons]
    have := ih (ageContext i s)
    simpa using this

end Sys2Proof.Machine
end

