-- ==== Sys2Proof/Tests/Slice0.lean ====
section
/-! SUPPORT. Tests: ill-formed terms, the spec's worked values, one step of the commands on small states, and for every statement
with hypotheses a state that meets them (test_meets_…). -/

namespace Sys2Proof.Tests

set_option Elab.async false

open Sys2Proof Sys2Proof.Machine

/-! ### Small states -/

/-- Station 4660 (the worked draw of 03 section 3.3) of team 12, neighbour range 10..14, T_b 300 and H 40 (R18's example). -/
def conf (role : Role) : Config :=
  { role := role, station := 0x1234, homeTeam := 12, rangeLow := 10, rangeHigh := 14, busyThreshold := 300, hysteresis := 40,
    crowdThreshold := 480, decreaseFactor := 2, increase := 24, rMin := 32, rInit := 192, rMax := 512, wBaseCode := 1,
    readbackBaseCode := 1, agingCode := 1, ganged := true, tight := false, supervisionCode := 2, attemptLimit := 2 }

/-- A part that runs in a team, with nothing staged. -/
def runs (role : Role) : State :=
  { State.reset with
    time := 1000
    cfl := { part := .running, resetHeld := false, fault := .none, holding := [], inForce := some (conf role) }
    cau := { Cau.reset with rate := 192, credit := 448, gateOpen := true, generator := some 0x1234 }
    tmu := { Tmu.reset with attached := true, homeTeam := 12 }
    tpt := { Tpt.reset with range := some (10, 14) }
    pins := { stopd := decide (role = .locomotive), interrupt := false, key := false } }

def peer (station : Station) (role : Role) : Peer :=
  { station := station, role := role, link := .active, silence := 0, lastHeard := 900, reportedHolder := none,
    reportedCauses := none, lastDelivered := none }

/-- A locomotive held by portable 215, nothing stopping it. -/
def held : State :=
  { runs .locomotive with tmu.peers := [peer 215 .portable, peer 302 .locomotive], tmu.control := .held 215, pins.stopd := false }

def frame (c : PortCommand) (params : List Byte) : Frame :=
  { params := params, check := digest (c.code :: octet params.length :: params) }

/-- The state with a command frame begun at the port. -/
def selected (s : State) : State := { s with tpt.port := .frame }

/-- The state with a reception in progress, stamped 990. -/
def hears (s : State) : State := { s with rxc.reception := some 990 }

/-- A one-fragment call of portable 215 in team 12, with call number 7. -/
def callBurst (target : Station) (callType : Byte) : Burst :=
  { kind := .call, crowded := false, role := .portable, index := 0, last := true, team := 12, sender := 215, target := target,
    callNumber := 7, confirm := true, presence := .normal, body := callType :: List.replicate 21 0 }

/-- What a step makes of a command, or the state itself where it stops. -/
def after (c : Instr) (s : State) : State :=
  match exec c s with
  | .next t => t
  | _ => s

/-- The first n octets of the reply on data out. -/
def replyHead (n : Nat) (s : State) : List Byte :=
  match s.tpt.port with
  | .reply octets => octets.take n
  | _ => []

/-- The same call with the CRC spoiled. -/
def spoiled (b : Burst) : List Byte := (writeBurst b).set 31 (octetAt (writeBurst b) 31 ^^^ 1)

/-- An ALLSTOP of a team from station 7001. -/
def allstopBurst (team : Team) : Burst :=
  { kind := .allstop, crowded := false, role := .portable, index := 0, last := true, team := team, sender := 7001, target := 65535,
    callNumber := 0, confirm := false, presence := .normal, body := allstopPattern ++ List.replicate 14 0 }

/-- A PRESENCE of locomotive 302 of team 12 that reports holder 215 and the causes CAB and RADIO_STOP. -/
def presenceBurst (flag : PresenceFlag) : Burst :=
  { kind := .presence, crowded := true, role := .locomotive, index := 0, last := true, team := 12, sender := 302, target := 65535,
    callNumber := 0, confirm := false, presence := flag, body := [0, 215, 0x11] ++ List.replicate 19 0 }

/-- A READBACK of locomotive 301 for this station's call 40. -/
def readbackBurst (verdict : Byte) : Burst :=
  { kind := .readback, crowded := false, role := .locomotive, index := 0, last := true, team := 12, sender := 301, target := 0x1234,
    callNumber := 40, confirm := false, presence := .normal, body := [3, verdict, 0x06, 0x03] ++ List.replicate 18 0 }

/-- A team-wide STOP with confirm for 301 and 302, in buffer 127. -/
def order (state : OrderState) : Order :=
  { sequence := 0, callNumber := 40, callType := 3, target := 65535, confirm := true, length := 0, digest := 0x0603, buffers := [127],
    next := 0, place := .none, attempts := 1, state := state, members := [{ station := 301, answer := none },
    { station := 302, answer := none }], cancelPending := false, outcome := none, finishStamp := none, wait := none }

/-- The state with an order in slot 0, holding buffer 127. -/
def withOrder (o : Order) (s : State) : State :=
  { s with odu.ool := s.odu.ool.set 0 (some o), bpl.free := (List.finRange 128).take 127 }

/-- A NOTICE of 30 octets from portable 215 whose fragment 0 stands in buffer 1. -/
def waiting : Context :=
  { sender := 215, senderRole := .portable, callNumber := 7, target := 65535, callType := 0x11, length := 30, confirm := true,
    next := 1, buffers := [1], crowdedSeen := false, firstStamp := 900, age := 0 }

/-- The state with that call in context 3. -/
def withContext (c : Context) (s : State) : State := { s with asu.contexts := s.asu.contexts.set 3 (some c) }

def staged (source : Source) (force : ForceTimer) : Staged :=
  { burst := writeBurst (callBurst 65535 3), source := source, window := 8, backoff := 3, force := force }

/-- The state with a burst staged and the gap begun. -/
def withStaged (st : Staged) (s : State) : State := { s with cau.staging := some st, cau.access := .gap }

/-- The state with a burst on air, all its 60 samples taken. -/
def airing (source : Source) (s : State) : State :=
  { s with cau.onAir := some { burst := writeBurst (callBurst 65535 3), source := source }, cau.access := .onAir, cau.onAirSamples := 60 }

def record : CallRecord :=
  { sender := 215, senderRole := .portable, target := 65535, callNumber := 6, callType := 0x11, length := 1, buffers := [2],
    firstStamp := 800, lastStamp := 800, confirm := false, fromHolder := true, crowdedSeen := false, verdict := .accepted }

def result : ResultRecord :=
  { slot := 1, callNumber := 39, callType := 3, target := 65535, outcome := .done, attempts := 1, answered := [], finishStamp := 700 }

def exception : ExceptionEntry := { code := .outOfOrder, sender := 215, callNumber := 5, index := 2, stamp := 600 }

/-- A locomotive with a call waiting, a call received, a held call, and an order whose fragment is staged. -/
def busy : State :=
  { withStaged (staged (.fragment 0 0) .none) (withContext waiting (withOrder { order .sending with place := .staged } held)) with
    asu.rcq := [record]
    bpl.held := [{ handle := 4, buffers := [4, 5] }]
    bpl.free := (List.finRange 128).filter (fun b => decide (b ∉ ([1, 2, 4, 5, 127] : List (Fin 128))))
    bpl.memory := [(44, 0x11), (45, 1)]
    odu.callNumber := 41
    odu.nextSequence := 1
    pins := { stopd := false, interrupt := true, key := false }
    pending := [.levelSample 200] }

/-- A configuration block of 22 octets and its digest: station 4660 as a locomotive with the fields of conf. -/
def blockFields : List Byte :=
  [2, 0x12, 0x34, 12, 10, 14, 0x01, 0x2C, 40, 0x01, 0xE0, 2, 24, 0, 32, 0, 192, 2, 0, 0x55, 0x12, 0]

def block : List Byte := blockFields ++ octetsOf (digest blockFields)

/-- The state during a load, with n octets of a block read. -/
def loading (octets : List Byte) : State :=
  { State.reset with cfl := { part := .configuring, resetHeld := false, fault := .none, holding := octets, inForce := none } }

def halted : State :=
  { State.reset with cfl := { part := .halted, resetHeld := false, fault := .noMemory, holding := [], inForce := none } }

/-! ### Ill-formed terms -/

theorem test_short_burst_is_ill_formed : (Instr.burstReceived (List.replicate 31 0)).wellFormed = false := by decide +kernel

theorem test_named_code_is_ill_formed : (Instr.badCommand 0x12 (frame .restart [])).wellFormed = false := by decide +kernel

theorem test_long_frame_is_ill_formed : (Instr.submitOrder { params := List.replicate 256 0, check := 0 }).wellFormed = false := by
  decide +kernel

theorem test_unnamed_code_is_well_formed : (Instr.badCommand 0x13 { params := [], check := 0 }).wellFormed = true := by decide +kernel

/-! ### Worked values of the spec -/

/-- The usual check value of the CRC that R7 describes. -/
theorem test_crc_of_digits : crc [0x31, 0x32, 0x33, 0x34, 0x35, 0x36, 0x37, 0x38, 0x39] = 0x29B1 := by decide +kernel

/-- 04 section 4.4 (COUNTDOWN, MOVE, STOP) and 11 (HANDOVER_OFFER, HANDOVER_TAKE). -/
theorem test_digests : [[2, 1, 10], [1, 2, 1, 3], [3, 0], [5, 0], [6, 0]].map digest = [0x120D, 0x0F07, 0x0603, 0x0A05, 0x0C06] := by
  decide +kernel

/-- R5: the last length of one fragment, of two, of seven and of eight. -/
theorem test_fragment_counts : [0, 20, 21, 42, 43, 152, 153, 174].map fragmentCount = [1, 1, 2, 2, 3, 7, 8, 8] := by decide +kernel

/-- The draws of 03 section 3.3. -/
theorem test_generator : ([0x1234, 0x2468, 0x48D1, 0x11A3] : List (BitVec 15)).map advanceGenerator = [0x2468, 0x48D1, 0x11A3, 0x2346] := by
  decide +kernel

/-- The worked draw of 03 section 3.3: the second attempt of a crowded station has W 32 and B 8. -/
theorem test_staged_window_and_draw :
    ((stage (.fragment 0 0) (withOrder { order .sending with attempts := 2 } { runs .portable with cau.crowded := true })).cau.staging.map
      (fun st => (st.window, st.backoff))) = some (32, 8) := by decide +kernel

/-- The table of R25, at R = 192. -/
theorem test_pace_decrease :
    [1, 2, 3, 4, 5, 6, 7].map (fun n => (paceDecrease { runs .portable with cfl.inForce := some { conf .portable with
      decreaseFactor := n } }).cau.rate) = [96, 144, 168, 180, 186, 189, 191] := by decide +kernel

/-- R168: octet 0 of 0xC1 is an ALLSTOP, crowded mark clear, role portable, index 0, last flag set. -/
theorem test_header_octet :
    let b := readBurst (0xC1 :: List.replicate 31 0)
    b.kind = .allstop ∧ b.crowded = false ∧ b.role = .portable ∧ b.index = 0 ∧ b.last = true := by decide +kernel

/-- R170: the block above passes every check, and is the configuration of conf. -/
theorem test_block_reads : firstBadField block = none ∧ readConfig block = conf .locomotive := by decide +kernel


/-! ### One step of a command -/

theorem test_step_takes_the_front : step { runs .portable with pending := [.burstSync, .shortBurst] } =
    exec .burstSync { runs .portable with pending := [.shortBurst] } := rfl

theorem test_reset_keeps_inputs : after (.reset .resetPin) { held with stu.keyInput := true } =
    { State.reset with stu.keyInput := true } := by decide +kernel

theorem test_second_reset_changes_nothing : after (.reset .powerOn) { State.reset with time := 5 } = { State.reset with time := 5 } := by
  decide +kernel

theorem test_reset_end_begins_a_load : (after .resetEnd State.reset).cfl = (loading []).cfl := by decide +kernel

/-- R44: station 4660 seeds its generator with 0x1234, and the joining PRESENCE takes the first draw. -/
theorem test_last_octet_enters_running :
    let t := after (.configOctetRead (octetAt block 23)) (loading (block.take 23))
    t.cfl.part = .running ∧ t.cfl.inForce = some (conf .locomotive) ∧ t.cau.generator = some 0x2468 ∧ t.stu.causes = { noHolder := true } ∧
      t.cau.staging.map Staged.source = some (.presence .joining) ∧ t.pins.stopd = true := by decide +kernel

theorem test_bad_digest_halts :
    (after (.configOctetRead (octetAt block 23 ^^^ 1)) (loading (block.take 23))).cfl =
      { part := .halted, resetHeld := false, fault := .badDigest, holding := [], inForce := none } := by decide +kernel

theorem test_no_memory_halts : (after .noMemory (loading [])).cfl = halted.cfl := by decide +kernel

theorem test_sync_stamps : (after .burstSync (runs .portable)).rxc.reception = some 1000 := by decide +kernel

theorem test_second_sync_counts_a_failure : (after .burstSync (hears (runs .portable))).rxc.counts.checkFailures = 1 := by decide +kernel

/-- Burst a of 01 section 1.9. -/
theorem test_crowded_call_of_the_home_team :
    let t := after (.burstReceived (writeBurst { callBurst 65535 3 with crowded := true, sender := 4661 })) (hears (runs .portable))
    t.cau.crowdedHeard = true ∧ t.rxc.counts = { burstsGood := 1 } ∧ t.asu.rcq.length = 1 ∧ t.tmu.peers.map Peer.station = [4661] := by
  decide +kernel

/-- Bursts d and h of 01 section 1.9. -/
theorem test_degraded_allstops :
    (after (.burstReceived (spoiled (allstopBurst 13))) (hears (runs .portable))).stu.hold = true ∧
      (after (.burstReceived (spoiled (allstopBurst 40))) (hears (runs .portable))).rxc.counts = { checkFailures := 1 } := by decide +kernel

theorem test_short_burst_counts : (after .shortBurst (hears (runs .portable))).rxc.counts.checkFailures = 1 := by decide +kernel

/-- R18's example. -/
theorem test_band_keeps_the_sense_state :
    (after (.levelSample 280) (runs .portable)).cau.sense = .clear ∧ (after (.levelSample 300) (runs .portable)).cau.sense = .busy ∧
      (after (.levelSample 280) { runs .portable with cau.sense := .busy }).cau.sense = .busy ∧
      (after (.levelSample 259) { runs .portable with cau.sense := .busy }).cau.sense = .clear := by decide +kernel

/-- The second expiry of the example of 02: A 450 and O 180 give 518, crowded at T_c 480. -/
theorem test_pace_expiry :
    let t := after .paceTimerExpiry { runs .portable with cau.average := 450, cau.occupancy := 180, cau.paceSamples := 200 }
    t.cau.average = 518 ∧ t.cau.crowded = true ∧ t.cau.credit = 640 := by decide +kernel

theorem test_gap_opens_the_backoff :
    (after .gapComplete (withStaged (staged .readback .none) { runs .portable with cau.gapCount := 8 })).cau.access = .backoff := by
  decide +kernel

theorem test_last_slot_keys :
    let t := after .slotComplete { withStaged { staged (.presence .normal) .none with backoff := 1 } (runs .portable) with
      cau.access := .backoff, cau.slotCount := 4 }
    t.cau.access = .onAir ∧ t.pins.key = true := by decide +kernel

theorem test_joining_presence_opens_the_gate :
    (after .onAirCompletion (airing (.presence .joining) { runs .portable with cau.gateOpen := false })).cau.gateOpen = true := by
  decide +kernel

theorem test_force_timer_keys :
    (after .forceTimerExpiry (withStaged (staged (.allstop 12) (.running 0)) (runs .portable))).cau.access = .onAir := by decide +kernel

theorem test_last_wait_expiry_fails_the_order :
    (after (.readbackWaitExpiry 0) (withOrder { order .awaitReadback with attempts := 2, wait := some 0 } (runs .portable))).odu.rsq.map
      ResultRecord.outcome = [.failed] := by decide +kernel

/-- R70: aging code 1 is a limit of 5. -/
theorem test_aging_abandons :
    let t := after .agingTimerExpiry { withContext { waiting with age := 4 } (runs .portable) with asu.agingMs := 100 }
    t.asu.exq.map ExceptionEntry.code = [.agedOut] ∧ t.asu.contexts = List.replicate 24 none := by decide +kernel

/-- R115: supervision code 2 is a limit of 15. -/
theorem test_lost_holder_stops :
    let t := after .silenceTimerExpiry { held with
      tmu.peers := [{ peer 215 .portable with silence := 14, link := .fading }], tmu.silenceMs := 100 }
    t.stu.causes = { supervision := true } ∧ t.pins.stopd = true := by decide +kernel

/-- R116: an interval of 5. -/
theorem test_presence_is_requested :
    (after .presenceTimerExpiry { runs .portable with tmu.presenceMs := 100, tmu.presenceCount := 4 }).cau.staging.map Staged.source =
      some (.presence .normal) := by decide +kernel

theorem test_offer_lapses :
    (after .offerTimerExpiry { held with tmu.control := .offerPending 215 220 100, time := 4100 }).tmu.control = .held 215 := by
  decide +kernel

theorem test_hold_ends : (after .holdExpiry { held with stu.hold := true, stu.lastAllstop := some 100, time := 5100 }).stu.hold = false := by
  decide +kernel

theorem test_key_edge_starts_a_series :
    let t := after .emergencyKeyEdge (runs .portable)
    t.stu.repeatCount = 3 ∧ t.stu.seriesTeam = some 12 ∧ t.cau.staging.map Staged.source = some (.allstop 12) := by decide +kernel

theorem test_key_release : (after .emergencyKeyRelease { runs .portable with stu.keyInput := true }).stu.keyInput = false := by
  decide +kernel

theorem test_cab_stops : (after (.cabStopTransition true) held).stu.causes = { cab := true } := by decide +kernel

theorem test_select : (after .selectActive held).tpt.port = .frame ∧ (after .selectInactive (selected held)).tpt.port = .idle := by
  decide +kernel

/-- R144: the digest of 0x13, 0x00 is 0x2613; the reply's is over 0x13, 0x11, 0x00. -/
theorem test_bad_command : (after (.badCommand 0x13 { params := [], check := 0x2613 }) (selected held)).tpt.port =
    .reply [0xA5, 0x13, 0x11, 0x00, 0x5B, 0x24] := by decide +kernel

theorem test_status_of_a_locomotive :
    let t := after (.readStatus (frame .readStatus [])) (selected { held with tpt.flags.allstopHeard := true })
    replyHead 18 t = [0xA5, 0x01, 0x00, 56, 1, 0, 0, 1, 0x12, 0x34, 12, 1, 10, 14, 0, 1, 0, 215] ∧
      t.tpt.flags = {} := by
  decide +kernel

/-- R89: slot 0, call number 0, and the digest of a STOP. -/
theorem test_submitted_stop :
    let t := after (.submitOrder (frame .submitOrder [3, 0xFF, 0xFF, 1, 0])) (selected (runs .portable))
    replyHead 6 t = [0xA5, 0x02, 0x00, 2, 0, 0] ∧
      (orderAt 0 t).map (fun o => (o.digest, o.state, o.attempts)) = some (0x0603, .sending, 1) := by
  decide +kernel

theorem test_cancelled_order :
    (after (.cancelOrder (frame .cancelOrder [0])) (selected (withOrder (order .queued) (runs .portable)))).odu.rsq.map
      ResultRecord.outcome = [.cancelled] := by decide +kernel

theorem test_call_is_taken_and_released :
    (after (.takeCall (frame .takeCall [])) (selected busy)).bpl.held.map HeldCall.handle = [4, 2] ∧
      (after (.releaseCall (frame .releaseCall [4])) (selected busy)).bpl.held = [] := by decide +kernel

/-- R169: code, sender, call number, index, stamp. -/
theorem test_exception_is_taken :
    replyHead 11 (after (.takeException (frame .takeException [])) (selected { held with asu.exq := [exception] })) =
      [0xA5, 0x06, 0x00, 7, 3, 0, 215, 5, 2, 2, 0x58] := by decide +kernel

theorem test_result_makes_room :
    let t := after (.takeResult (frame .takeResult [])) (selected { withOrder { order .finished with
      outcome := some .done, finishStamp := some 990, buffers := [] } (runs .portable) with
      odu.rsq := List.replicate 8 result, odu.finishedSlots := [0] })
    t.odu.rsq.length = 8 ∧ t.odu.ool = List.replicate 8 none := by decide +kernel

theorem test_peers_are_read :
    replyHead 17 (after (.readPeers (frame .readPeers [])) (selected held)) =
      [0xA5, 0x08, 0x00, 19, 2, 0, 215, 0, 0, 0x03, 0x84, 0, 0, 0, 0x01, 0x2E, 1] := by decide +kernel

theorem test_yard_allstop :
    (after (.sendAllstop (frame .sendAllstop [2])) (selected (runs .portable))).stu.seriesTeam = some 0 := by decide +kernel

theorem test_terminal_stop :
    (after (.stopRequest (frame .stopRequest [])) (selected held)).stu.causes = { terminal := true } ∧
      (after (.clearTerminalStop (frame .clearTerminalStop [])) (selected { held with stu.causes := { terminal := true } })).stu.causes =
        {} := by decide +kernel

theorem test_join_clears_the_team :
    let t := after (.joinTeam (frame .joinTeam [13])) (selected held)
    t.tmu.homeTeam = 13 ∧ t.tmu.peers = [] ∧ t.tmu.control = .unheld ∧ t.stu.causes = { noHolder := true } := by decide +kernel

theorem test_leave_waits_for_its_presence :
    let t := after (.leaveTeam (frame .leaveTeam [])) (selected (runs .portable))
    t.tmu.attached = true ∧ t.tmu.leavePending = true ∧ t.cau.staging.map Staged.source = some (.presence .leaving) := by decide +kernel

theorem test_range_narrows : (after (.narrowRange (frame .narrowRange [11, 12])) (selected held)).tpt.range = some (11, 12) := by
  decide +kernel

theorem test_counts_are_read_and_cleared :
    let s := selected { held with rxc.counts := { burstsGood := 0x0102, strayReadbacks := 3 } }
    replyHead 16 (after (.readCounts (frame .readCounts [])) s) = [0xA5, 0x0F, 0x00, 12, 1, 2, 0, 0, 0, 0, 0, 0, 0, 0, 0, 3] ∧
      (after (.readAndClearCounts (frame .readAndClearCounts [])) s).rxc.counts = {} := by
  decide +kernel

theorem test_mask : (after (.setMask (frame .setMask [0])) (selected busy)).pins.interrupt = false := by decide +kernel

theorem test_restart_keeps_causes :
    let t := after (.restart (frame .restart [])) (selected { held with stu.causes := { radioStop := true } })
    t.stu.causes = { radioStop := true, noHolder := true } ∧ t.tmu.control = .unheld ∧ t.cfl.part = .running := by decide +kernel

/-! ### States that meet the hypotheses of the statements, clause by clause -/

theorem passes (c : PortCommand) (params : List Byte) (s : State) (hp : s.cfl.part = .running)
    (hl : params.length = c.requiredLength params) : FramePasses c (frame c params) (selected s) :=
  ⟨rfl, rfl, by simp [selected, hp, PortCommand.acceptedIn], hl⟩

theorem outside (c : PortCommand) (params : List Byte) : FrameOutsideRunning c (frame c params) (selected halted) :=
  ⟨rfl, rfl, by decide +kernel⟩

theorem in_range {team : Team} (h : 10 ≤ team.toNat ∧ team.toNat ≤ 14) (role : Role) : InRange team (hears (runs role)) :=
  ⟨10, 14, rfl, h⟩

theorem not_in_range {team : Team} (h : ¬ (10 ≤ team.toNat ∧ team.toNat ≤ 14)) (role : Role) : ¬ InRange team (hears (runs role)) := by
  rintro ⟨low, high, hr, h1⟩
  have hr : some ((10 : Team), (14 : Team)) = some (low, high) := hr
  cases hr
  exact h h1

theorem receiving (role : Role) : Receiving 990 (hears (runs role)) := ⟨rfl, rfl⟩

theorem test_meets_steps : (runs .portable).pending = [] := rfl

theorem test_meets_resets_and_loads : State.reset.cfl.part = .configuring ∧ State.reset.cfl.resetHeld = true ∧
    (loading []).cfl.part = .configuring ∧ (loading []).cfl.resetHeld = false ∧
    FramePasses .restart (frame .restart []) (selected halted) ∧ (selected halted).cfl.part = .halted :=
  ⟨rfl, rfl, rfl, rfl, ⟨rfl, rfl, rfl, rfl⟩, rfl⟩

/-- One octet short, a bad digest, a bad field, and a good block. -/
theorem test_meets_load :
    (loading (block.take 22)).cfl.holding.length < 23 ∧ (loading (block.take 23)).cfl.holding.length = 23 ∧
      wordAt (block.take 23 ++ [0]) 22 ≠ digest ((block.take 23 ++ [0]).take 22) ∧
      wordAt block 22 = digest (block.take 22) ∧ block = block.take 23 ++ [octetAt block 23] ∧ firstBadField block = none ∧
      (∀ bad, bad = blockFields.set 3 0 → firstBadField (bad ++ octetsOf (digest bad)) = some 3 ∧
        wordAt (bad ++ octetsOf (digest bad)) 22 = digest ((bad ++ octetsOf (digest bad)).take 22)) := by
  refine ⟨by decide +kernel, by decide +kernel, by decide +kernel, by decide +kernel, by decide +kernel, by decide +kernel, ?_⟩
  rintro bad rfl
  decide +kernel

/-- The first and the last check of R161 fail at offsets 0 and 20. -/
theorem test_meets_field_checks : firstBadField (blockFields.set 0 0) = some 0 ∧ firstBadField (blockFields.set 20 0x4A) = some 20 := by
  decide +kernel

theorem test_meets_sync : (runs .portable).cfl.part = .running ∧ (runs .portable).cau.access ≠ .onAir ∧
    (hears (runs .portable)).rxc.reception.isSome = true := by decide +kernel

theorem test_meets_failed_bursts : Receiving 990 (hears (runs .portable)) ∧
    crcGood (spoiled (allstopBurst 0)) = false ∧ crcGood (spoiled (allstopBurst 12)) = false ∧ crcGood (spoiled (allstopBurst 14)) = false ∧
    (readBurst (spoiled (allstopBurst 14))).kind = .allstop ∧ (readBurst (spoiled (allstopBurst 14))).body.take 8 = allstopPattern ∧
    (readBurst (spoiled (allstopBurst 0))).team = 0 ∧ IsHome (readBurst (spoiled (allstopBurst 12))).team (hears (runs .portable)) ∧
    InRange (readBurst (spoiled (allstopBurst 14))).team (hears (runs .portable)) ∧
    crcGood (spoiled (callBurst 65535 3)) = false ∧ (readBurst (spoiled (callBurst 65535 3))).kind ≠ .allstop :=
  ⟨receiving _, by decide +kernel, by decide +kernel, by decide +kernel, by decide +kernel, by decide +kernel, by decide +kernel,
   ⟨rfl, by decide +kernel⟩, in_range (by decide +kernel) _, by decide +kernel, by decide +kernel⟩

theorem test_meets_good_bursts : Receiving 990 (hears (runs .portable)) ∧
    (∀ b ∈ [{ callBurst 1 3 with sender := 0x1234 }, { callBurst 1 3 with sender := 65535 }, allstopBurst 0, allstopBurst 10,
      callBurst 1 3, { callBurst 1 3 with team := 14 }], crcGood (writeBurst b) = true ∧ readBurst (writeBurst b) = b) ∧
    ¬ IsHome 10 (hears (runs .portable)) ∧ InRange 10 (hears (runs .portable)) ∧ IsHome 12 (hears (runs .portable)) ∧
    ¬ IsHome 15 (hears (runs .portable)) ∧ ¬ InRange 15 (hears (runs .portable)) :=
  ⟨receiving _, by decide +kernel, fun h => absurd h.2 (by decide +kernel), in_range (by decide +kernel) _, ⟨rfl, rfl⟩,
   fun h => absurd h.2 (by decide +kernel), not_in_range (by decide +kernel) _⟩

/-- Burst kinds of the second step of R14. -/
theorem test_meets_routing : (callBurst 65535 3).kind = .call ∧ (callBurst 65535 3).target = 65535 ∧ (readbackBurst 0).kind = .readback ∧
    (readbackBurst 0).target = held.config.station ∧ (presenceBurst .normal).kind = .presence ∧ (allstopBurst 12).kind = .allstop := by
  decide +kernel

/-- Sixteen peers, 301 to 316; where lost, all are LOST and silent alike, so that 301 is to go. -/
def fullTable (link : LinkState) : State :=
  { runs .portable with tmu.peers := (List.range 16).map (fun i => { peer (BitVec.ofNat 16 (301 + i)) .locomotive with link := link }) }

theorem test_meets_peer_step :
    (∃ p ∈ held.tmu.peers, p.station = (callBurst 1 3).sender) ∧ (∀ p ∈ (runs .portable).tmu.peers, p.station ≠ 215) ∧
    (fullTable .active).tmu.peers.length = 16 ∧ (∀ p ∈ (fullTable .active).tmu.peers, p.station ≠ 215 ∧ p.link ≠ .lost) ∧
    (∀ p ∈ (fullTable .lost).tmu.peers, p.station ≠ 215) ∧
    (fullTable .lost).tmu.peers.Pairwise (fun p q => p.station.toNat < q.station.toNat) ∧
    (∃ e ∈ (fullTable .lost).tmu.peers, e.link = .lost ∧ isLocomotive (fullTable .lost) = false ∧
      ∀ p ∈ (fullTable .lost).tmu.peers, p.silence = e.silence ∧ e.station.toNat ≤ p.station.toNat) ∧
    (presenceBurst .leaving).presence = .leaving ∧ (∀ p ∈ (runs .portable).tmu.peers, p.station ≠ 302) ∧
    (presenceBurst .joining).kind = .presence ∧ (presenceBurst .joining).presence = .joining ∧
    ∃ p ∈ held.tmu.peers, p.station = (presenceBurst .joining).sender := by decide +kernel

/-- A joining PRESENCE of 400, which the full table does not hold. -/
def newcomer : Burst := { presenceBurst .joining with sender := 400 }

/-- An entry, no entry and room, no entry and a full table of which none, or 301 first, may go. -/
theorem test_meets_presence : Receiving 990 (hears held) ∧ crcGood (writeBurst (presenceBurst .leaving)) = true ∧
    readBurst (writeBurst (presenceBurst .leaving)) = presenceBurst .leaving ∧
    readBurst (writeBurst (presenceBurst .joining)) = presenceBurst .joining ∧
    FromMember (presenceBurst .leaving) (hears held) ∧ (∃ p ∈ (hears held).tmu.peers, p.station = (presenceBurst .leaving).sender) ∧
    FromMember (presenceBurst .joining) (hears (runs .portable)) ∧ (hears (runs .portable)).tmu.peers = [] ∧
    crcGood (writeBurst newcomer) = true ∧ readBurst (writeBurst newcomer) = newcomer ∧
    FromMember newcomer (hears (fullTable .active)) ∧ FromMember newcomer (hears (fullTable .lost)) ∧
    (∀ p ∈ (fullTable .active).tmu.peers ++ (fullTable .lost).tmu.peers, p.station ≠ newcomer.sender) :=
  ⟨⟨rfl, rfl⟩, by decide +kernel, by decide +kernel, by decide +kernel,
   ⟨by decide +kernel, by decide +kernel, by decide +kernel, rfl, rfl⟩, by decide +kernel,
   ⟨by decide +kernel, by decide +kernel, by decide +kernel, rfl, rfl⟩, rfl, by decide +kernel, by decide +kernel,
   ⟨by decide +kernel, by decide +kernel, by decide +kernel, rfl, rfl⟩,
   ⟨by decide +kernel, by decide +kernel, by decide +kernel, rfl, rfl⟩, by decide +kernel⟩

/-- R112: the newcomer takes the place of 301 and reports its holder, or finds no place. -/
theorem test_full_table :
    (presenceBody newcomer (peerStep newcomer 990 (fullTable .lost))).tmu.peers.map (fun p => (p.station, p.reportedHolder)) =
        (fullTable .lost).tmu.peers.tail.map (fun p => (p.station, none)) ++ [(400, some 215)] ∧
      peerStep newcomer 990 (fullTable .active) = { fullTable .active with tpt.flags.peerTableFull := true } := by decide +kernel

theorem test_meets_fragment_zero : contextOf 215 (withContext waiting held) = some (3, waiting) ∧ contextOf 215 held = none ∧
    firstEmpty { held with asu.contexts := List.replicate 24 (some waiting) }.asu.contexts = none ∧
    firstEmpty held.asu.contexts = some 0 ∧ held.bpl.free = 0 :: (List.finRange 128).tail ∧
    { held with bpl.free := [] }.bpl.free = [] := by decide +kernel

theorem test_meets_later_fragments : contextFor 215 7 held = none ∧ contextFor 215 7 (withContext waiting held) = some (3, waiting) ∧
    contextFor 215 7 (withContext { waiting with next := 7 } held) = some (3, { waiting with next := 7 }) ∧ waiting.next = 1 ∧
    held.bpl.free = 0 :: (List.finRange 128).tail := by decide +kernel

/-- What an entry remembers of the call that buffers 1 and 6 hold. -/
def remembered : Delivered :=
  { callNumber := 7, digest := digest (callOctets 0x11 30 ((readBuffers held.bpl.memory [1, 6]).drop 2)), verdict := .accepted }

/-- One buffer where F(30) is 2, and two; a sender whose entry remembers the call, and one whose entry does not. -/
theorem test_meets_completion :
    waiting.buffers.length ≠ fragmentCount waiting.length ∧
    { waiting with buffers := [1, 6] }.buffers.length = fragmentCount waiting.length ∧
    (findPeer 215 { held with tmu.peers := [{ peer 215 .portable with lastDelivered := some remembered }] }).map Peer.lastDelivered =
      some (some remembered) ∧
    (findPeer 215 held).map Peer.lastDelivered = some none := by decide +kernel

theorem test_meets_part_acted : isLocomotive held = true ∧ ∃ v t, decideVerdict 215 3 held = (v, t) := ⟨by decide +kernel, _, _, rfl⟩

/-- The RBQ with an entry for call 7 of 215, with none and with eight; the EXQ with fifteen and sixteen entries. -/
theorem test_meets_queues :
    let entry : ReadbackEntry := { sender := 215, callNumber := 7, callType := 3, digest := 0x0603, verdict := .accepted }
    let full : State := { held with odu.rbq := List.replicate 8 { entry with callNumber := 9 } }
    (∃ x ∈ { held with odu.rbq := [entry] }.odu.rbq, x.sender = entry.sender ∧ x.callNumber = entry.callNumber) ∧
    8 ≤ full.odu.rbq.length ∧ (∀ x ∈ held.odu.rbq, ¬ (x.sender = entry.sender ∧ x.callNumber = entry.callNumber)) ∧
    held.odu.rbq.length < 8 ∧ { held with asu.exq := List.replicate 15 exception }.asu.exq.length < 16 ∧
    16 ≤ { held with asu.exq := List.replicate 16 exception }.asu.exq.length := by decide +kernel

/-- A NOTICE on a locomotive, a STOP on a portable; the RCQ with room and full. -/
theorem test_meets_processor_acted : isLocomotive (runs .portable) = false ∧ isLocomotive held = true ∧
    (waiting.callType ≠ 1 ∧ waiting.callType ≠ 2 ∧ waiting.callType ≠ 3 ∧ waiting.callType ≠ 4 ∧ waiting.callType ≠ 6 ∧
      waiting.callType ≠ 7) ∧ { waiting with callType := 3 }.callType = 3 ∧ held.asu.rcq.length < 16 ∧
    16 ≤ { held with asu.rcq := List.replicate 16 record }.asu.rcq.length := by decide +kernel

theorem test_meets_movement : isLocomotive held = true ∧ held.tmu.control.holder ≠ some 220 ∧ held.tmu.control.holder = some 215 ∧
    held.stu.causes = {} ∧ { held with stu.causes := { cab := true } }.stu.causes ≠ {} := by decide +kernel

theorem test_meets_verdicts : isLocomotive held = true ∧ isLocomotive (runs .portable) = false ∧ held.tmu.control.holder = some 215 ∧
    held.stu.hold = false ∧ { held with stu.hold := true }.stu.hold = true ∧ held.tmu.control.holder ≠ some 220 ∧
    findPeer 220 held = none ∧ findPeer 302 held = some (peer 302 .locomotive) ∧ findPeer 215 held = some (peer 215 .portable) ∧
    { held with tmu.control := .unheld }.tmu.control = .unheld ∧
    { held with tmu.control := .offerPending 220 215 5 }.tmu.control = .offerPending 220 215 5 ∧
    { held with tmu.control := .held 220 }.tmu.control = .held 220 ∧
    { held with tmu.control := .offerPending 220 221 5 }.tmu.control = .offerPending 220 221 5 := by decide +kernel

theorem test_meets_overheard : (callBurst 302 5).target ≠ held.config.station ∧ (callBurst 302 5).target ≠ 65535 ∧
    (callBurst 302 5).index = 0 ∧ (callBurst 302 5).last = true ∧ octetAt (callBurst 302 5).body 0 = 5 ∧
    octetAt (callBurst 302 3).body 0 = 3 ∧ octetAt (callBurst 302 4).body 0 = 4 ∧ held.tmu.control.holder = some (callBurst 302 5).sender ∧
    isLocomotive held = true ∧ isLocomotive (runs .portable) = false := by decide +kernel

theorem test_meets_stop : Receiving 990 (hears held) ∧ crcGood (writeBurst (callBurst 65535 3)) = true ∧
    readBurst (writeBurst (callBurst 65535 3)) = callBurst 65535 3 ∧ FromMember (callBurst 65535 3) (hears held) ∧
    ForUs (callBurst 65535 3) (hears held) ∧ (octetAt (callBurst 65535 3).body 1).toNat ≤ 20 ∧ (hears held).bpl.free ≠ [] ∧
    none ∈ (hears held).asu.contexts ∧ isLocomotive (hears held) = true ∧ inUse (hears held).asu.contexts = [] :=
  ⟨⟨rfl, rfl⟩, by decide +kernel, by decide +kernel, ⟨by decide +kernel, by decide +kernel, by decide +kernel, rfl, rfl⟩,
   .inr (by decide +kernel), by decide +kernel, by decide +kernel, by decide +kernel, by decide +kernel, by decide +kernel⟩

theorem only_slot_zero {o : Order} {s : State} (h : s.odu.ool = List.replicate 8 none) {i : Nat} {x : Order}
    (hx : orderAt i (withOrder o s) = some x) : i = 0 ∧ x = o := by
  match i, hx with
  | 0, hx => simp [orderAt, slotAt, withOrder, h] at hx; exact ⟨rfl, hx.symm⟩
  | n + 1, hx =>
    exfalso
    simp [orderAt, slotAt, withOrder, h, List.replicate_succ] at hx
    match n, hx with
    | 0, hx => simp at hx
    | 1, hx => simp at hx
    | 2, hx => simp at hx
    | 3, hx => simp at hx
    | 4, hx => simp at hx
    | 5, hx => simp at hx
    | 6, hx => simp at hx
    | n + 7, hx => simp at hx

/-- A stray read-back, one that leaves 302 unanswered, and one that completes the set. -/
theorem test_meets_readbacks :
    (∀ i x, orderAt i (withOrder (order .finished) held) = some x → x.callNumber = 40 → x.state = .finished) ∧
    ((inUse (withOrder (order .awaitReadback) held).odu.ool).map Order.callNumber).Nodup ∧
    orderAt 0 (withOrder (order .awaitReadback) held) = some (order .awaitReadback) ∧ (readbackBurst 0).callNumber = 40 ∧
    wordAt (readbackBurst 0).body 2 = (order .awaitReadback).digest ∧
    (∃ m ∈ (order .awaitReadback).members, m.station = (readbackBurst 0).sender ∧ m.answer = none) ∧
    Verdict.ofByte (octetAt (readbackBurst 0).body 1) = some .accepted ∧
    Verdict.ofByte (octetAt (readbackBurst 5).body 1) = some .refusedNoRoom ∧ 5 < (octetAt (readbackBurst 6).body 1).toNat :=
  ⟨fun _ _ hx _ => (only_slot_zero (by decide +kernel) hx).2 ▸ rfl, by decide +kernel, by decide +kernel, by decide +kernel,
   by decide +kernel, by decide +kernel, by decide +kernel, by decide +kernel, by decide +kernel⟩

theorem test_meets_sample : (runs .portable).cfl.part = .running ∧ sampleWaits (runs .portable) = false ∧
    (runs .portable).cau.access ≠ .onAir ∧ sampleWaits { airing .readback (runs .portable) with cau.onAirSamples := 59 } = false ∧
    (airing .readback (runs .portable)).cau.access = .onAir := by decide +kernel

theorem test_meets_pace : (runs .portable).cfl.part = .running ∧ 200 ≤ { runs .portable with cau.paceSamples := 200 }.cau.paceSamples := by
  decide +kernel

theorem test_meets_going_on_air :
    (withStaged (staged .readback .none) { runs .portable with cau.gapCount := 8 }).cau.staging = some (staged .readback .none) ∧
    (withStaged (staged .readback .none) (runs .portable)).cau.access = .gap ∧
    8 ≤ (withStaged (staged .readback .none) { runs .portable with cau.gapCount := 8 }).cau.gapCount ∧
    { withStaged (staged (.presence .normal) .none) (runs .portable) with cau.access := .backoff, cau.slotCount := 4 }.cau.slotCount = 4 ∧
    (staged (.allstop 12) (.running 0)).force = .running 0 ∧ (staged (.allstop 12) (.running 20)).force = .running (19 + 1) ∧
    orderAt 0 (withStaged (staged (.fragment 0 0) .none) (withOrder { order .sending with place := .staged } (runs .portable))) =
      some { order .sending with place := .staged } ∧
    (airing .readback (withStaged (staged (.allstop 12) (.running 0)) (runs .portable))).cau.access = .onAir := by decide +kernel

/-- A leaving PRESENCE with the leave pending; an expired ALLSTOP, another burst and nothing staged behind it. -/
theorem test_meets_on_air_completion :
    (runs .portable).cfl.part = .running ∧ (airing (.presence .leaving) (runs .portable)).cau.access = .onAir ∧
    60 ≤ (airing (.presence .leaving) (runs .portable)).cau.onAirSamples ∧
    ((airing (.presence .joining) (runs .portable)).cau.onAir.map OnAir.source) = some (.presence .joining) ∧
    { runs .portable with tmu.leavePending := true }.tmu.presenceRequest ≠ some .leaving ∧
    (staged (.allstop 12) .expired).force = .expired ∧ (staged .readback .none).force ≠ .expired ∧
    (airing .readback (runs .portable)).cau.staging = none := by decide +kernel

/-- Each case of R93 for the order of the fragment on air: cancelled, one of two fragments, without confirm, with no member, all
answered, one answered; and a report for no order. -/
theorem test_meets_fragment_completion :
    (∀ o ∈ ([{ order .sending with place := .onAir, cancelPending := true }, { order .sending with place := .onAir, length := 21 },
        { order .sending with place := .onAir, confirm := false }, { order .sending with place := .onAir, members := [] },
        { order .sending with place := .onAir, members := [{ station := 301, answer := some .accepted }] },
        { order .sending with place := .onAir }] : List Order),
      orderAt 0 (airing (.fragment 0 0) (withOrder o (runs .portable))) = some o ∧ o.state = .sending ∧ o.place = .onAir ∧ o.next = 0) ∧
    0 + 1 < fragmentCount 21 ∧ fragmentCount (order .sending).length ≤ 0 + 1 ∧ (∃ m ∈ (order .sending).members, m.answer = none) ∧
    orderAt 0 (airing (.fragment 0 0) (runs .portable)) = none := by decide +kernel

theorem test_meets_series_completion : (airing (.allstop 12) (runs .portable)).stu.repeatCount = 0 ∧
    { airing (.allstop 12) (runs .portable) with stu.repeatCount := 1, stu.seriesTeam := some 12 }.stu.repeatCount = 1 ∧
    2 ≤ { airing (.allstop 12) (runs .portable) with stu.repeatCount := 2, stu.seriesTeam := some 12 }.stu.repeatCount := by decide +kernel

/-- One state for each class, and one with none ready. -/
theorem test_meets_arbiter : (runs .portable).cfl.part = .running ∧ (runs .portable).cau.staging = none ∧
    { runs .portable with cau.allstopRequest := some 12 }.cau.allstopRequest = some 12 ∧
    { runs .portable with odu.rbq := [{ sender := 215, callNumber := 7, callType := 3, digest := 0x0603, verdict := .accepted }] }.odu.rbq ≠ [] ∧
    { runs .portable with tmu.presenceRequest := some .normal }.tmu.presenceRequest = some .normal ∧
    orderAt 0 (withOrder (order .sending) (runs .portable)) = some (order .sending) ∧
    ((inUse (withOrder (order .sending) (runs .portable)).odu.ool).filter isSending).length ≤ 1 ∧
    (∀ o ∈ inUse (withOrder (order .queued) (runs .portable)).odu.ool, o.state ≠ .sending) ∧ halted.cfl.part ≠ .running := by decide +kernel

/-- A part that has just started: its joining PRESENCE stands staged in GAP, and a read-back is owed for a call heard since. -/
def starting : State :=
  { withStaged (staged (.presence .joining) .none) (runs .portable) with
    cau.gateOpen := false
    tmu.presenceRequest := some .joining
    odu.rbq := [{ sender := 215, callNumber := 7, callType := 3, digest := 0x0603, verdict := .accepted }] }

/-- The full register that O25 leaves alone. -/
theorem test_meets_full_register : starting.cfl.part = .running ∧ starting.cau.staging ≠ none ∧ starting.odu.rbq ≠ [] := by decide +kernel

/-- R45: the read-back waits for the staged PRESENCE. R49, R163: once an ALLSTOP has displaced that PRESENCE and gone on air, the
read-back is staged ahead of it. -/
theorem test_readback_and_joining : arbitrate starting = starting ∧
    (requestAllstop 12 starting).cau.staging.map Staged.source = some (.allstop 12) ∧
    (requestAllstop 12 starting).tmu.presenceRequest = some .joining ∧
    (arbitrate (goOnAir (requestAllstop 12 starting))).cau.staging.map Staged.source = some .readback := by decide +kernel

/-- W_BASE 8: 8 at the first attempt, 128 from the fifth on. -/
theorem test_meets_staging : (runs .portable).cau.generator = some 0x1234 ∧
    orderAt 0 (withOrder (order .sending) (runs .portable)) = some (order .sending) ∧
    min 128 (2 ^ ((runs .portable).config.wBaseCode.toNat + 2) * 2 ^ (1 - 1)) = 8 ∧
    min 128 (2 ^ ((runs .portable).config.wBaseCode.toNat + 2) * 2 ^ (8 - 1)) = 128 := by decide +kernel

theorem test_meets_composed :
    ({ runs .portable with odu.rbq := [{ sender := 215, callNumber := 7, callType := 3, digest := 0x0603, verdict := .accepted }] }).odu.rbq =
      [{ sender := 215, callNumber := 7, callType := 3, digest := 0x0603, verdict := .accepted }] ∧
    orderAt 0 (withOrder (order .sending) (runs .portable)) = some (order .sending) ∧ (order .sending).buffers[0]? = some 127 := by
  decide +kernel

theorem test_meets_allstop_requests : { runs .portable with cau.allstopRequest := some 12 }.cau.allstopRequest = some 12 ∧
    (runs .portable).cau.allstopRequest = none ∧ (runs .portable).cau.staging = none ∧
    (withStaged (staged (.allstop 12) (.running 20)) (runs .portable)).cau.staging = some (staged (.allstop 12) (.running 20)) ∧
    (staged .readback .none).source = .readback ∧ (staged (.presence .normal) .none).source = .presence .normal ∧
    (staged (.fragment 0 0) .none).source = .fragment 0 0 ∧
    orderAt 0 (withStaged (staged (.fragment 0 0) .none) (withOrder { order .sending with place := .staged } (runs .portable))) =
      some { order .sending with place := .staged } := by decide +kernel

theorem test_meets_round_trip : (callBurst 302 3).body.length = 22 := by decide +kernel

theorem test_meets_written_calls : Memory.wf busy.bpl.memory = true ∧ ([3, 9] : List BufferNumber).Nodup ∧
    (List.replicate 42 (1 : Byte)).length ≤ 174 ∧ [3, 9].length = fragmentCount (List.replicate 42 (1 : Byte)).length ∧
    (withOrder (order .sending) held).odu.ool.length = 8 := by decide +kernel

/-- One submission for each test of R87, on a portable. -/
theorem test_meets_submission_tests :
    FrameOutsideRunning .submitOrder (frame .submitOrder [3, 0, 5, 0, 0]) (selected halted) ∧
    FramePasses .submitOrder (frame .submitOrder [3, 0, 5, 0, 0]) (selected (runs .portable)) ∧
    { runs .portable with tmu.leavePending := true }.tmu.leavePending = true ∧
    CallType.ofByte 8 = none ∧ CallType.ofByte 0x40 = none ∧ CallType.ofByte 6 = some .handoverTake ∧
    (readSubmission [6, 1, 44, 1, 1, 0]).target ≠ 65535 ∧ (readSubmission [1, 0, 5, 0, 1, 0]).length ≠ 2 ∧
    (readSubmission [3, 0, 0, 0, 0]).target = 0 ∧
    (readSubmission [3, 0x12, 0x34, 0, 0]).target = (runs .portable).config.station ∧
    (∀ x ∈ { runs .portable with odu.ool := List.replicate 8 (some (order .queued)) }.odu.ool, x ≠ none) ∧
    none ∈ (runs .portable).odu.ool ∧ { runs .portable with bpl.free := [] }.bpl.free.length < fragmentCount 0 :=
  ⟨outside _ _, passes _ _ _ rfl rfl, by decide +kernel⟩

/-- A team-wide STOP of a portable into slot 0, and a CUT_LIST of three octets of a locomotive into slot 1. -/
theorem test_meets_accepted_submission :
    let stop := readSubmission [3, 0xFF, 0xFF, 1, 0]
    let cuts := readSubmission [0x10, 0, 5, 1, 3, 1, 2, 3]
    FramePasses .submitOrder (frame .submitOrder [3, 0xFF, 0xFF, 1, 0]) (selected (runs .portable)) ∧
    FramePasses .submitOrder (frame .submitOrder [0x10, 0, 5, 1, 3, 1, 2, 3]) (selected busy) ∧
    (∀ s ∈ [selected (runs .portable), selected busy], s.cfl.part = .running ∧ s.tmu.attached = true ∧ s.tmu.leavePending = false) ∧
    CallType.ofByte stop.callType = some .stop ∧ stop.length = 0 ∧ stop.target = 65535 ∧
    CallType.ofByte cuts.callType = some .cutList ∧ cuts.length = 3 ∧ cuts.target ≠ 0 ∧
    cuts.target ≠ (selected busy).config.station ∧
    (selected (runs .portable)).odu.ool[0]? = some none ∧ (selected busy).odu.ool[1]? = some none ∧
    (∀ n < 1, (selected busy).odu.ool[n]? ≠ some none) ∧ fragmentCount 0 ≤ (selected (runs .portable)).bpl.free.length ∧
    fragmentCount 3 ≤ (selected busy).bpl.free.length := ⟨passes _ _ _ rfl rfl, passes _ _ _ rfl rfl, by decide +kernel⟩

theorem test_meets_promotion :
    (∃ o ∈ inUse (withOrder (order .sending) held).odu.ool, o.state = .sending) ∧
    (∀ o ∈ inUse (withOrder (order .awaitReadback) held).odu.ool, o.state ≠ .queued) ∧
    (∀ o ∈ inUse (withOrder (order .queued) held).odu.ool, o.state ≠ .sending) ∧
    orderAt 0 (withOrder (order .queued) held) = some (order .queued) ∧
    (∀ other p, orderAt other (withOrder (order .queued) held) = some p → other = 0) :=
  ⟨by decide +kernel, by decide +kernel, by decide +kernel, by decide +kernel, fun _ _ h => (only_slot_zero (by decide +kernel) h).1⟩

/-- The attempt limit is 2: a retry at attempt 1, an end at attempt 2. -/
theorem test_meets_wait_expiry : (runs .portable).config.attemptLimit = 2 ∧
    orderAt 0 (withOrder { order .awaitReadback with wait := some 0 } (runs .portable)) =
      some { order .awaitReadback with wait := some 0 } ∧
    (order .awaitReadback).attempts < 2 ∧ 2 ≤ { order .awaitReadback with attempts := 2 }.attempts ∧
    (∀ m ∈ (order .awaitReadback).members, m.answer = none) ∧
    (∃ m ∈ { order .awaitReadback with members := [{ station := 301, answer := some .accepted }] }.members, m.answer ≠ none) := by
  decide +kernel

theorem test_meets_finishing :
    orderAt 0 (withOrder (order .awaitReadback) held) = some (order .awaitReadback) ∧ (order .awaitReadback).place ≠ .staged ∧
    (withOrder (order .awaitReadback) held).odu.rsq.length < 8 ∧
    8 ≤ { withOrder (order .awaitReadback) held with odu.rsq := List.replicate 8 result }.odu.rsq.length ∧
    busy.cau.staging = some (staged (.fragment 0 0) .none) ∧ orderAt 0 busy = some { order .sending with place := .staged } := by
  decide +kernel

theorem test_meets_cancel : FramePasses .cancelOrder (frame .cancelOrder [8]) (selected busy) ∧
    FramePasses .cancelOrder (frame .cancelOrder [0]) (selected busy) ∧
    FrameOutsideRunning .cancelOrder (frame .cancelOrder [7]) (selected halted) ∧ orderAt 7 (selected busy) = none ∧
    (∀ o ∈ ([order .finished, { order .sending with cancelPending := true, place := .onAir }, { order .sending with place := .onAir },
      order .queued, order .awaitReadback, { order .sending with place := .staged }, order .sending] : List Order),
      orderAt 0 (withOrder o (runs .portable)) = some o) :=
  ⟨passes _ _ _ rfl rfl, passes _ _ _ rfl rfl, outside _ _, by decide +kernel⟩

theorem test_meets_taking :
    FrameOutsideRunning .takeCall (frame .takeCall []) (selected halted) ∧
    FrameOutsideRunning .releaseCall (frame .releaseCall [4]) (selected halted) ∧
    FrameOutsideRunning .takeResult (frame .takeResult []) (selected halted) ∧
    FramePasses .takeCall (frame .takeCall []) (selected busy) ∧ FramePasses .releaseCall (frame .releaseCall [4]) (selected busy) ∧
    FramePasses .releaseCall (frame .releaseCall [128]) (selected busy) ∧ FramePasses .takeResult (frame .takeResult []) (selected busy) ∧
    (selected held).asu.rcq = [] ∧ (selected busy).asu.rcq = [record] ∧ record.buffers = [2] ∧ (selected busy).odu.rsq = [] ∧
    (∀ h ∈ (selected busy).bpl.held, h.handle.val ≠ 128) ∧ (selected busy).bpl.held = [] ++ [{ handle := 4, buffers := [4, 5] }] ∧
    orderAt 0 { withOrder { order .finished with outcome := some .done, finishStamp := some 990, buffers := [] } held with
      odu.rsq := List.replicate 8 result, odu.finishedSlots := [0] } =
        some { order .finished with outcome := some .done, finishStamp := some 990, buffers := [] } :=
  ⟨outside _ _, outside _ _, outside _ _, passes _ _ _ rfl rfl, passes _ _ _ rfl rfl, passes _ _ _ rfl rfl, passes _ _ _ rfl rfl,
   by decide +kernel⟩

/-- Each form of the fault code, the range and the control; a part at rest; one exception and none. -/
theorem test_meets_reading : FramePasses .readStatus (frame .readStatus []) (selected State.reset) ∧
    (State.reset.cfl.fault = .none ∧ halted.cfl.fault = .noMemory ∧ State.reset.tpt.range = none ∧ held.tpt.range = some (10, 14)) ∧
    (State.reset.tmu.control = .unheld ∧ held.tmu.control = .held 215) ∧
    (∃ s : State, s.cfl.fault = .badDigest ∧ s.tmu.control = .offerPending 215 301 990) ∧ (∃ s : State, s.cfl.fault = .badField 2) ∧
    (halted.cfl.part ≠ .running ∧ ConfigKept (selected halted) ∧ AtRest (selected halted) ∧ (selected halted).odu.ool.length = 8) ∧
    FramePasses .readStatus (frame .readStatus []) (selected halted) ∧
    FramePasses .readCounts (frame .readCounts []) (selected busy) ∧
    FramePasses .readAndClearCounts (frame .readAndClearCounts []) (selected busy) ∧
    FramePasses .readPeers (frame .readPeers []) (selected busy) ∧
    FramePasses .takeException (frame .takeException []) (selected held) ∧ (selected held).asu.exq = [] ∧
    (selected { held with asu.exq := [exception] }).asu.exq = [exception] :=
  ⟨⟨rfl, rfl, rfl, rfl⟩, by decide +kernel, by decide +kernel,
   ⟨{ held with cfl.fault := .badDigest, tmu.control := .offerPending 215 301 990 }, rfl, rfl⟩,
   ⟨{ held with cfl.fault := .badField 2 }, rfl⟩,
   ⟨by decide, ⟨by decide, fun _ h => nomatch h⟩, fun _ => by decide +kernel, rfl⟩, ⟨rfl, rfl, rfl, rfl⟩,
   passes _ _ _ rfl rfl, passes _ _ _ rfl rfl, passes _ _ _ rfl rfl, passes _ _ _ rfl rfl, by decide +kernel⟩

/-- R169: the idle octet before a reply, and the reply's start octet. -/
theorem test_data_out : dataOut State.reset.tpt.port 0 = some 0xFF ∧ dataOut (selected held).tpt.port 3 = some 0xFF ∧
    dataOut (after (.takeCall (frame .takeCall [])) (selected held)).tpt.port 0 = some 0xA5 := by decide +kernel

/-- Masks 31 and 32; ranges below, at and above the bounds of the one in force. -/
theorem test_meets_mask_and_range : FrameOutsideRunning .setMask (frame .setMask [31]) (selected halted) ∧
    FrameOutsideRunning .narrowRange (frame .narrowRange [10, 14]) (selected halted) ∧
    FramePasses .setMask (frame .setMask [31]) (selected held) ∧ FramePasses .setMask (frame .setMask [32]) (selected held) ∧
    FramePasses .narrowRange (frame .narrowRange [14, 10]) (selected held) ∧
    FramePasses .narrowRange (frame .narrowRange [10, 14]) (selected held) ∧
    FramePasses .narrowRange (frame .narrowRange [9, 14]) (selected held) ∧
    FramePasses .narrowRange (frame .narrowRange [10, 15]) (selected held) ∧ (selected held).tpt.range = some (10, 14) ∧
    (selected held).config.tight = false ∧ ∃ t, exec (.leaveTeam (frame .leaveTeam [])) (selected held) = .next t :=
  ⟨outside _ _, outside _ _, passes _ _ _ rfl rfl, passes _ _ _ rfl rfl, passes _ _ _ rfl rfl, passes _ _ _ rfl rfl,
   passes _ _ _ rfl rfl, passes _ _ _ rfl rfl, by decide +kernel, by decide +kernel, _, rfl⟩

theorem test_meets_frame_tests : (selected halted).tpt.port = .frame ∧ { params := [], check := 0 : Frame }.check ≠ digest [1, 0] ∧
    (frame .takeCall []).check = digest [4, 0] ∧ (selected halted).cfl.part = .halted ∧ (selected State.reset).cfl.part = .configuring ∧
    (frame .readStatus [0]).params.length ≠ 0 ∧ (frame .submitOrder [3, 0, 5, 0, 0, 0]).params.length ≠ 5 + 0 ∧
    0x12 < (0x13 : Byte).toNat ∧ held.tpt.port = .idle ∧ (selected held).tpt.port ≠ .idle := by decide +kernel

/-- Sixteen exceptions waiting, and a context that the next expiry takes to the limit of 5. -/
theorem test_meets_aging : { withContext { waiting with age := 4 } held with
      asu.agingMs := 100, asu.exq := List.replicate 16 exception }.asu.exq.length ≤ 16 ∧
    (withContext { waiting with age := 4 } held).cfl.part = .running := by decide +kernel

theorem test_meets_silence_and_presence : held.cfl.part = .running ∧ 100 ≤ { held with tmu.silenceMs := 100 }.tmu.silenceMs ∧
    100 ≤ { held with tmu.presenceMs := 100 }.tmu.presenceMs ∧
    ([6, 10, 15, 20, 30, 40, 60, 80] : List Nat).getD held.config.supervisionCode.toNat 0 = 15 := by decide +kernel

theorem test_meets_offer_and_hold :
    { held with tmu.control := .offerPending 215 220 100 }.tmu.control = .offerPending 215 220 100 ∧
    4000 ≤ ((4100 : Stamp) - 100).toNat ∧ ¬ 4000 ≤ ((4099 : Stamp) - 100).toNat ∧
    5000 ≤ ((5100 : Stamp) - 100).toNat ∧ ¬ 5000 ≤ ((5099 : Stamp) - 100).toNat ∧
    { held with stu.hold := true, stu.lastAllstop := some 100 }.stu.lastAllstop = some 100 := by decide +kernel

theorem test_meets_series_starts : held.stu.keyInput = false ∧ { held with stu.keyInput := true }.stu.keyInput = true ∧
    halted.cfl.part ≠ .running ∧ held.cfl.part = .running ∧
    FrameOutsideRunning .sendAllstop (frame .sendAllstop [1]) (selected halted) ∧
    FramePasses .sendAllstop (frame .sendAllstop [0]) (selected held) ∧ FramePasses .sendAllstop (frame .sendAllstop [1]) (selected held) ∧
    FramePasses .sendAllstop (frame .sendAllstop [2]) (selected held) ∧ FramePasses .sendAllstop (frame .sendAllstop [3]) (selected held) :=
  ⟨by decide +kernel, by decide +kernel, by decide +kernel, by decide +kernel, outside _ _, passes _ _ _ rfl rfl, passes _ _ _ rfl rfl,
   passes _ _ _ rfl rfl, passes _ _ _ rfl rfl⟩

theorem test_meets_local_causes : held.stu.cabInput ≠ true ∧ isLocomotive held = true ∧ isLocomotive (runs .portable) = false ∧
    FramePasses .stopRequest (frame .stopRequest []) (selected held) ∧
    FramePasses .clearTerminalStop (frame .clearTerminalStop []) (selected held) ∧
    FrameOutsideRunning .stopRequest (frame .stopRequest []) (selected halted) ∧
    FrameOutsideRunning .clearTerminalStop (frame .clearTerminalStop []) (selected halted) :=
  ⟨by decide +kernel, by decide +kernel, by decide +kernel, passes _ _ _ rfl rfl, passes _ _ _ rfl rfl, outside _ _, outside _ _⟩

/-- Teams 0, 1, 250 and 251; a slot in use and none; a staged READBACK and nothing staged. -/
theorem test_meets_join_and_leave : (∀ t ∈ ([0, 1, 250, 251] : List Team), FramePasses .joinTeam (frame .joinTeam [t]) (selected held)) ∧
    FramePasses .leaveTeam (frame .leaveTeam []) (selected held) ∧
    FrameOutsideRunning .joinTeam (frame .joinTeam [12]) (selected halted) ∧
    FrameOutsideRunning .leaveTeam (frame .leaveTeam []) (selected halted) ∧
    (∃ x ∈ (selected busy).odu.ool, x ≠ none) ∧ (∀ x ∈ (selected held).odu.ool, x = none) ∧ (selected held).config.tight = false ∧
    { conf .locomotive with tight := true }.tight = true ∧ (selected held).tmu.attached = true ∧ halted.tmu.attached = false ∧
    { held with tmu.leavePending := true }.tmu.leavePending = true ∧
    (withStaged (staged .readback .none) held).cau.staging = some (staged .readback .none) ∧ held.cau.staging = none :=
  ⟨fun _ _ => passes _ _ _ rfl rfl, passes _ _ _ rfl rfl, outside _ _, outside _ _, by decide +kernel⟩

theorem test_meets_restart : FramePasses .restart (frame .restart []) (selected busy) ∧ (selected busy).cfl.part = .running :=
  ⟨passes _ _ _ rfl rfl, rfl⟩

theorem test_meets_out_of_place : halted.cfl.part ≠ .running ∧ (airing .readback held).cau.access = .onAir ∧ held.rxc.reception = none ∧
    sampleWaits { held with cau.paceSamples := 200 } = true ∧ { held with cau.paceSamples := 199 }.cau.paceSamples < 200 ∧
    { withStaged (staged .readback .none) held with cau.gapCount := 7 }.cau.gapCount < 8 ∧ held.cau.slotCount < 4 ∧
    { airing .readback held with cau.onAirSamples := 59 }.cau.onAirSamples < 60 ∧ orderAt 0 held = none ∧
    held.cau.staging = none ∧ (staged (.allstop 12) (.running 1)).force ≠ .running 0 ∧ held.stu.hold = false ∧
    ((4005 : Stamp) - 6).toNat < 4000 ∧ ((2 : Stamp) - 60539).toNat < 5000 ∧
    { held with asu.agingMs := 99 }.asu.agingMs < 100 ∧ held.tmu.silenceMs < 100 ∧ held.tmu.presenceMs < 100 ∧
    held.stu.keyInput = false ∧ held.tpt.port = .idle ∧ (selected held).tpt.port ≠ .idle := by decide +kernel

/-! ### A sound part, for the laws that every step keeps -/

theorem busy_order {i : Nat} {x : Order} (hx : orderAt i busy = some x) : x = { order .sending with place := .staged } :=
  (only_slot_zero (s := held) (by decide +kernel) hx).2

theorem busy_finished : FinishedHeld busy := by
  refine ⟨by decide +kernel, fun i => ⟨fun h => absurd h (by simp [busy, withStaged, withContext, withOrder, held, runs, State.reset, Odu.reset]),
    ?_⟩, ?_, fun h => absurd rfl h⟩
  · rintro ⟨x, hx, h⟩
    rw [busy_order hx] at h
    exact absurd h (by decide)
  · intro i x hx h
    rw [busy_order hx] at h
    exact absurd h (by decide)

theorem busy_places : PlacesAgree busy := by
  refine ⟨fun i x hx _ => ?_, fun i x hx _ => ?_, fun st i index h hs => ?_, fun i x hx h => ?_⟩
  · rw [busy_order hx]; rfl
  · obtain ⟨rfl, rfl⟩ := only_slot_zero (s := held) (by decide +kernel) hx
    exact ⟨_, rfl, rfl⟩
  · cases h; cases hs
    exact ⟨_, rfl, rfl, rfl⟩
  · rw [busy_order hx] at h
    exact absurd h (by decide)

theorem conf_sound : ConfigSound (conf .locomotive) := by
  constructor <;> decide +kernel

theorem test_busy_is_sound : Sound busy := by
  refine ⟨by show busy.pins = _; decide +kernel, ⟨⟨fun _ => rfl, fun _ => rfl⟩, fun c h => ?_⟩, ⟨by decide +kernel, by decide +kernel,
    by decide +kernel, by decide +kernel, fun _ => by decide +kernel⟩, ⟨⟨rfl, rfl⟩, fun st h => ?_, fun b h => ?_,
    ⟨fun _ _ _ => rfl, fun _ _ _ => rfl⟩, ⟨fun _ => rfl, by decide +kernel⟩, by decide +kernel, by decide +kernel, by decide +kernel⟩,
    ⟨⟨by decide +kernel, by decide +kernel, by decide +kernel⟩, by decide +kernel, by decide +kernel, by decide +kernel⟩, ?_,
    ⟨by decide +kernel, by decide +kernel⟩, ⟨by decide +kernel, by decide +kernel, by decide +kernel, by decide +kernel,
    by decide +kernel, by decide +kernel, busy_finished⟩, busy_places, fun _ h => ?_, ⟨⟨by decide +kernel, by decide +kernel, fun _ => by decide +kernel⟩,
    fun _ => ⟨by decide +kernel, fun h hh => ?_⟩⟩, fun h => absurd rfl h⟩
  · cases h; exact conf_sound
  · cases h; exact ⟨by decide +kernel, by decide +kernel, by decide +kernel, by decide +kernel⟩
  · cases h
  · show (bufferPlaces busy).Perm (List.finRange 128); decide +kernel
  · cases h
  · cases hh; exact ⟨by decide +kernel, by decide +kernel⟩

/-- A part whose order has its fragment on air. -/
def flying : State := airing (.fragment 0 0) (withOrder { order .sending with place := .onAir } held)

/-- The place stays on air while the register keeps the fragment. -/
theorem test_meets_on_air_place :
    orderAt 0 flying = some { order .sending with place := .onAir } ∧ flying.cau.onAir.map OnAir.source = some (.fragment 0 0) ∧
      (after (.cabStopTransition true) flying).cau.onAir = flying.cau.onAir ∧
      orderAt 0 (after (.cabStopTransition true) flying) = some { order .sending with place := .onAir } ∧
      OrdersSound flying ∧ TransmitterSound flying ∧ PlacesAgree flying := by
  have only {i : Nat} {x : Order} (hx : orderAt i flying = some x) : i = 0 ∧ x = { order .sending with place := .onAir } :=
    only_slot_zero (s := held) (by decide +kernel) hx
  refine ⟨by decide +kernel, by decide +kernel, by decide +kernel, by decide +kernel, ⟨by decide +kernel, by decide +kernel,
    by decide +kernel, by decide +kernel, by decide +kernel, by decide +kernel, by decide +kernel,
    fun i => ⟨fun h => (List.not_mem_nil h).elim, ?_⟩, fun i x hx h => ?_, fun h => absurd rfl h⟩,
    ⟨rfl, fun st h => ?_, fun b h => ?_, ⟨fun _ _ _ => rfl, fun _ _ _ => rfl⟩, ⟨fun _ => rfl, by decide +kernel⟩, ⟨by decide +kernel, by decide +kernel, by decide +kernel⟩⟩,
    fun i x hx _ => ?_, fun i x hx h => ?_, fun st i index h => ?_, fun i x hx h => ?_⟩
  · rintro ⟨x, hx, h⟩
    rw [(only hx).2] at h
    exact absurd h (by decide)
  · rw [(only hx).2] at h
    exact absurd h (by decide)
  · cases h
  · cases h
    show crcGood (writeBurst (callBurst 65535 3)) = true
    decide +kernel
  · rw [(only hx).2]; rfl
  · rw [(only hx).2] at h
    exact absurd h (by decide)
  · cases h
  · obtain ⟨rfl, rfl⟩ := only hx
    exact ⟨_, rfl, rfl⟩

/-- The step of a level sample from it. -/
theorem test_busy_steps : ∃ t, step busy = .next t := ⟨_, rfl⟩

/-- A part that runs with nothing staged and nothing ready. -/
theorem test_meets_quiet_arbiter : ArbiterKept held ∧ held.cau.staging = none := ⟨fun _ _ => by decide +kernel, rfl⟩

/-- A part that does not run, with a command waiting. -/
theorem test_meets_rest : AtRest halted ∧ halted.cfl.part ≠ .running ∧
    ∃ t, step { halted with pending := [.emergencyKeyEdge] } = .next t :=
  ⟨fun _ => ⟨rfl, rfl, rfl, rfl, rfl, rfl, rfl, rfl, rfl, rfl, rfl⟩, by decide, _, rfl⟩

/-- A radio stop that a RELEASE of the holder takes out. -/
theorem test_meets_release :
    let s := hears { held with stu.causes := { radioStop := true } }
    s.cfl.part = .running ∧ isLocomotive s = true ∧ s.tmu.control.holder = some 215 ∧ s.stu.hold = false ∧
      (after (.burstReceived (writeBurst (callBurst 65535 4))) s).stu.causes = {} := by decide +kernel

/-- A COUNTDOWN of the holder that joins the RCQ, and one of another portable that does not. -/
theorem test_meets_movement_step :
    let b := { callBurst 0x1234 2 with body := 2 :: 1 :: List.replicate 20 0 }
    (hears held).cfl.part = .running ∧ isLocomotive (hears held) = true ∧
      ((after (.burstReceived (writeBurst b)) (hears held)).asu.rcq.map CallRecord.callType) = [2] ∧
      (after (.burstReceived (writeBurst { b with sender := 220 })) (hears held)).asu.rcq = [] := by decide +kernel

end Sys2Proof.Tests
end

section
/-! PROOF. A burst received to its end: what each operation of the Receive Classifier does (01 sections 1.6 to 1.8), and the statements
about failed and good bursts. -/

namespace Sys2Proof.Machine

/-! ### The tests of the classifier, read as the statements put them -/

theorem countUp_eq_ofNat_min (n : Word) : countUp n = BitVec.ofNat 16 (min 65535 (n.toNat + 1)) := by
  apply BitVec.eq_of_toNat_eq
  rw [countUp_toNat, BitVec.toNat_ofNat]
  omega

theorem isStation_iff {n : Station} : isStation n = true ↔ n ≠ 0 ∧ n ≠ 65535 := by simp [isStation]

theorem isHomeTeam_iff {team : Team} {s : State} : isHomeTeam team s = true ↔ IsHome team s := by simp [isHomeTeam, IsHome]

theorem inRange_iff {team : Team} {s : State} : inRange team s = true ↔ InRange team s := by
  unfold inRange InRange
  cases s.tpt.range with
  | none => simp
  | some bounds =>
    obtain ⟨low, high⟩ := bounds
    constructor
    · intro h
      exact ⟨low, high, rfl, of_decide_eq_true h⟩
    · rintro ⟨low', high', hb, h⟩
      cases hb
      exact decide_eq_true h

theorem degradedAllstop_iff {b : Burst} {s : State} : degradedAllstop b s = true ↔
    b.kind = .allstop ∧ b.body.take 8 = allstopPattern ∧ (b.team = 0 ∨ IsHome b.team s ∨ InRange b.team s) := by
  simp [degradedAllstop, patternExact, isHomeTeam_iff, inRange_iff, and_assoc, or_assoc]

/-! ### An all-stop honoured -/

/-- Where a locomotive's set holds ALLSTOP_CAUSE already, R128 leaves set and flag alone, and so does putting it in again. -/
theorem honourAllstop_eq_heardAllstop (stamp : Stamp) (s : State) : honourAllstop stamp s = heardAllstop stamp s := by
  unfold honourAllstop heardAllstop putAllstopCause
  rcases setCauses_cases { s.stu.causes with allstop := true } s with ⟨hl, hc, hs⟩ | ⟨hk, hs⟩
  · have hnew : s.stu.causes.allstop = false := by
      rw [← Bool.not_eq_true]
      intro h
      exact hc (by rw [← h])
    simp [hs, hl, hnew]
  · rcases hk with hp | hc
    · simp [hs, hp]
    · have hold : s.stu.causes.allstop = true := by rw [← hc]
      rw [hs]
      simp [hc, hold]

/-! ### A good burst sorted by its team (R13) -/

theorem sortByTeam_home {b : Burst} (stamp : Stamp) {s : State} (h0 : b.team ≠ 0) (hh : IsHome b.team s) :
    sortByTeam b stamp s = routeHomeBurst b stamp (peerStep b stamp s) := by
  rw [sortByTeam, if_neg h0, if_pos (isHomeTeam_iff.mpr hh)]

theorem sortByTeam_allstop {b : Burst} (stamp : Stamp) {s : State} (hk : b.kind = .allstop)
    (ht : b.team = 0 ∨ (¬ IsHome b.team s ∧ InRange b.team s)) : sortByTeam b stamp s = heardAllstop stamp s := by
  rw [← honourAllstop_eq_heardAllstop]
  rcases ht with h0 | ⟨hh, hr⟩
  · rw [sortByTeam, if_pos h0, if_pos hk]
  · simp [sortByTeam, hk, isHomeTeam_iff, hh, inRange_iff.mpr hr]

theorem sortByTeam_foreign {b : Burst} (stamp : Stamp) {s : State} (ht : b.team = 0 ∨ ¬ IsHome b.team s)
    (hk : b.kind ≠ .allstop ∨ (b.team ≠ 0 ∧ ¬ InRange b.team s)) : sortByTeam b stamp s = countForeign s := by
  by_cases h0 : b.team = 0
  · have hk : b.kind ≠ .allstop := hk.resolve_right fun h => h.1 h0
    rw [sortByTeam, if_pos h0, if_neg hk]
  · have hh : ¬ IsHome b.team s := ht.resolve_left h0
    rw [sortByTeam, if_neg h0, if_neg (mt isHomeTeam_iff.mp hh)]
    rcases hk with hk | ⟨-, hr⟩
    · rw [if_neg hk, ite_self]
    · rw [if_neg (mt inRange_iff.mp hr)]

/-! ### A good burst by its sender (R12) -/

theorem goodBurst_own {b : Burst} (stamp : Stamp) {s : State} (h : b.sender = s.config.station) :
    goodBurst b stamp s = { countGood s with tpt.flags.ownNumberHeard := true } := if_pos h

theorem goodBurst_noStation {b : Burst} (stamp : Stamp) {s : State} (hown : b.sender ≠ s.config.station)
    (h : b.sender = 0 ∨ b.sender = 65535) : goodBurst b stamp s = countForeign (countGood s) := by
  have hs : isStation b.sender = false := by rcases h with h | h <;> rw [h] <;> rfl
  exact (if_neg hown).trans (by simp [hs])

/-- The reception over, a burst of another station is sorted in the state that has counted it and noted its crowded mark. -/
theorem goodBurst_station {b : Burst} (stamp : Stamp) {s : State} (hown : b.sender ≠ s.config.station)
    (h0 : b.sender ≠ 0) (h1 : b.sender ≠ 65535) :
    goodBurst b stamp { s with rxc.reception := none } = sortByTeam b stamp (heardGood b s) := by
  have hs : isStation b.sender = true := isStation_iff.mpr ⟨h0, h1⟩
  refine (if_neg hown).trans ?_
  cases hc : b.crowded <;> simp [hs, hc, heardGood, countGood]

/-! ### BURST_RECEIVED in a reception -/

theorem exec_burstReceived_of_receiving (octets : List Byte) {stamp : Stamp} {s : State} (h : Receiving stamp s) :
    exec (.burstReceived octets) s = .next (settle (classify octets stamp s)) := by
  obtain ⟨hrun, hrec⟩ := h
  change execBurstReceived octets s = _
  simp only [execBurstReceived, hrun, hrec]
  rfl

theorem exec_burstReceived_crcFailed {octets : List Byte} {stamp : Stamp} {s : State} (h : Receiving stamp s)
    (hcrc : crcGood octets = false) : exec (.burstReceived octets) s =
      .next (settle (failedBurst (readBurst octets) stamp { s with rxc.reception := none })) := by
  rw [exec_burstReceived_of_receiving octets h]
  simp [classify, hcrc]

theorem exec_burstReceived_crcGood {octets : List Byte} {stamp : Stamp} {s : State} (h : Receiving stamp s)
    (hcrc : crcGood octets = true) : exec (.burstReceived octets) s =
      .next (settle (goodBurst (readBurst octets) stamp { s with rxc.reception := none })) := by
  rw [exec_burstReceived_of_receiving octets h]
  simp [classify, hcrc]

/-! ### The second step of a home-team burst (R14) -/

theorem routeHomeBurst_call {b : Burst} (stamp : Stamp) (s : State) (h : b.kind = .call) :
    routeHomeBurst b stamp s = callArrived b stamp s := by simp [routeHomeBurst, h]

theorem routeHomeBurst_readback {b : Burst} (stamp : Stamp) (s : State) (h : b.kind = .readback) :
    routeHomeBurst b stamp s = if b.target = s.config.station then readbackArrived b s else s := by simp [routeHomeBurst, h]

theorem routeHomeBurst_presence {b : Burst} (stamp : Stamp) (s : State) (h : b.kind = .presence) :
    routeHomeBurst b stamp s = presenceBody b s := by simp [routeHomeBurst, h]

theorem routeHomeBurst_allstop {b : Burst} (stamp : Stamp) (s : State) (h : b.kind = .allstop) :
    routeHomeBurst b stamp s = heardAllstop stamp s := by simp [routeHomeBurst, h, honourAllstop_eq_heardAllstop]

theorem callArrived_forUs {b : Burst} (stamp : Stamp) {s : State} (h : ForUs b s) :
    callArrived b stamp s = if b.index = 0 then fragmentZero b stamp s else laterFragment b b.index.toNat stamp s := if_pos h

/-- The two tests of an entry, that it is the sender's and that it is a locomotive's, as one. -/
theorem presenceBody_eq (b : Burst) (s : State) : presenceBody b s =
    { s with tmu.peers := s.tmu.peers.map (fun p => if p.station = b.sender ∧ p.role = .locomotive then
        { p with reportedHolder := some (wordAt b.body 0), reportedCauses := some (Causes.ofByte (octetAt b.body 2)) } else p) } := by
  simp only [presenceBody, updatePeer, ite_and]

/-! ### The statements -/

/-- Settles O6: the two branches of R11, split by what honours a degraded all-stop. -/
theorem failedBurstsAreHonouredOrCounted : Obligations.FailedBurstsAreHonouredOrCounted := by
  rintro octets stamp s hrec hcrc b rfl
  rw [exec_burstReceived_crcFailed hrec hcrc]
  -- Team and range are looked at after the reception has ended, which they do not depend on.
  have hiff := degradedAllstop_iff (b := readBurst octets) (s := { s with rxc.reception := none })
  constructor
  · intro h
    rw [failedBurst, if_pos (hiff.mpr h), honourAllstop_eq_heardAllstop]
  · intro h
    rw [failedBurst, if_neg (mt hiff.mp h), ← countUp_eq_ofNat_min]
    rfl

/-- Settles O7: R12 by the sender, R13 by the team, and R14's second step by the kind. -/
theorem goodBurstsAreClassified : Obligations.GoodBurstsAreClassified := by
  constructor
  · rintro octets stamp s hrec hcrc b rfl
    rw [exec_burstReceived_crcGood hrec hcrc]
    refine ⟨fun hown => ?own, fun hown hno => ?noStation, fun hown h0 h1 => ?station⟩
    case own =>
      rw [goodBurst_own stamp (s := { s with rxc.reception := none }) hown]
      rfl
    case noStation =>
      rw [goodBurst_noStation stamp (s := { s with rxc.reception := none }) hown hno]
      rfl
    case station =>
      rw [goodBurst_station stamp hown h0 h1]
      refine ⟨fun hk ht => ?allstop, fun ht hh => ?home, fun ht hk => ?foreign⟩
      case allstop => rw [sortByTeam_allstop stamp (s := heardGood _ s) hk ht]
      case home => rw [sortByTeam_home stamp (s := heardGood _ s) ht hh]
      case foreign =>
        rw [sortByTeam_foreign stamp (s := heardGood _ s) ht hk]
        rfl
  · intro b stamp s
    refine ⟨routeHomeBurst_call stamp s, fun hk hfor => ?forUs, routeHomeBurst_readback stamp s, fun hk => ?presence,
      routeHomeBurst_allstop stamp s⟩
    case forUs => rw [routeHomeBurst_call stamp s hk, callArrived_forUs stamp hfor]
    case presence => rw [routeHomeBurst_presence stamp s hk, presenceBody_eq]

end Sys2Proof.Machine
end

section
/-! PROOF. The pace of the Channel Access Unit (02 sections 2.1 to 2.6): what one level sample and one pace timer expiry do, and that
every step leaves R, C, A and O within their bounds and a checked configuration in force exactly in RUNNING. -/

namespace Sys2Proof.Machine

/-! ### One level sample (R17 to R20) -/

/-- R18's table as one test: the sample finds the medium busy. -/
def busySample (c : Config) (before : SenseState) (level : Level) (insideBurst : Bool) : Bool :=
  insideBurst ||
    if before = .clear then decide (c.busyThreshold ≤ level.toNat) else decide (max 1 (c.busyThreshold - c.hysteresis) ≤ level.toNat)

theorem sensed_eq_busySample (c : Config) (before : SenseState) (level : Level) (insideBurst : Bool) :
    sensed c before level insideBurst = if busySample c before level insideBurst then .busy else .clear := by
  cases insideBurst with
  | true => rfl
  | false =>
    cases before with
    | clear => simp [sensed, busySample]
    | busy =>
      change (if level.toNat < releaseLevel c then SenseState.clear else .busy) =
        if decide (releaseLevel c ≤ level.toNat) then .busy else .clear
      by_cases h : level.toNat < releaseLevel c
      · simp [h, Nat.not_le.mpr h]
      · simp [h, Nat.not_lt.mp h]

theorem sampled_onAir (c : Config) (level : Level) (insideBurst : Bool) {cau : Cau} (h : cau.access = .onAir) :
    sampled c level insideBurst cau =
      { cau with
        occupancy := cau.occupancy + 1, paceSamples := cau.paceSamples + 1, onAirSamples := cau.onAirSamples + 1 } := if_pos h

/-- A sample outside ON_AIR, field by field (R18, R37, R38). -/
theorem sampled_not_onAir {c : Config} {level : Level} {insideBurst busy : Bool} {cau : Cau}
    (hb : busySample c cau.sense level insideBurst = busy) (ha : cau.access ≠ .onAir) :
    sampled c level insideBurst cau = { cau with
      sense := if busy then .busy else .clear
      occupancy := if busy then cau.occupancy + 1 else cau.occupancy
      paceSamples := cau.paceSamples + 1
      access := if cau.access = .backoff ∧ busy = true then .gap else cau.access
      gapCount := if cau.access = .idle then cau.gapCount else if busy then 0
        else if cau.access = .gap then cau.gapCount + 1 else cau.gapCount
      slotCount := if cau.access = .backoff then (if busy then 0 else cau.slotCount + 1) else cau.slotCount } := by
  rw [sampled, if_neg ha, sensed_eq_busySample, hb]
  obtain ⟨_, _, _, _, _, _, _, _, _, _, _, access, _, _, _, _, _⟩ := cau
  cases access with
  | onAir => exact absurd rfl ha
  | idle => cases busy <;> rfl
  | gap => cases busy <;> rfl
  | backoff => cases busy <;> rfl

theorem exec_levelSample_of_running (level : Level) {s : State} (hr : s.cfl.part = .running) (hw : sampleWaits s = false) :
    exec (.levelSample level) s = .next (drivePins { s with cau := sampled s.config level s.rxc.reception.isSome s.cau }) :=
  if_pos ⟨decide_eq_true hr, hw⟩

/-- Settles O19: a sample in ON_AIR, and one elsewhere by what it finds. -/
theorem levelSamplesSenseCountAndTimeTheAccess : Obligations.LevelSamplesSenseCountAndTimeTheAccess := by
  intro level s hr hw
  rw [exec_levelSample_of_running level hr hw]
  refine ⟨fun ha => ?onAir, fun ha busy hb => ?elsewhere⟩
  case onAir => rw [sampled_onAir _ _ _ ha]
  case elsewhere => rw [sampled_not_onAir hb.symm ha]

/-! ### The pace timer expiry (R21) -/

theorem exec_paceTimerExpiry_of_due {s : State} (hr : s.cfl.part = .running) (hd : 200 ≤ s.cau.paceSamples) :
    exec .paceTimerExpiry s = .next (settle { s with cau := paceExpired s.config s.cau }) := by
  have hdue : paceDue s = true := by simp [paceDue, running, hr, hd]
  exact if_pos hdue

/-- Settles O20: R21's four steps are paceExpired's, the decrease being R25's. -/
theorem paceTimerExpiryTakesFourSteps : Obligations.PaceTimerExpiryTakesFourSteps := by
  rintro s hr hd average rate rfl rfl
  exact exec_paceTimerExpiry_of_due hr hd

/-! ### What keeps a predicate through a step -/

/-- A predicate is kept by a step if it is kept by the passing of a millisecond, by every command, and does not look at the queue. -/
theorem step_keeps {P : State → Prop} (hqueue : ∀ s rest, P s → P { s with pending := rest }) (htick : ∀ s, P s → P (tick s))
    (hexec : ∀ c s t, P s → exec c s = .next t → P t) {s t : State} (h : P s) (hstep : step s = .next t) : P t := by
  unfold step at hstep
  split at hstep
  · cases hstep
    exact htick s h
  · exact hexec _ _ t (hqueue s _ h) hstep

/-- An event that is taken where p holds, and elsewhere changes nothing. -/
theorem taken_keeps {P : State → Prop} {p : Prop} {s effect t : State} (hnext : p ∧ t = effect ∨ ¬p ∧ t = s) (h : P s)
    (heffect : p → P effect) : P t := by
  rcases hnext with ⟨hp, rfl⟩ | ⟨-, rfl⟩
  · exact heffect hp
  · exact h

/-- A frame at the port keeps what its command's own rule keeps and the reply does not touch. -/
theorem answerFrame_keeps {P : State → Prop} (hreply : ∀ code answer data s, P s → P (withReply code answer data s))
    {c : PortCommand} {f : Frame} {own : State → PortResult} {s t : State} (h : P s) (hown : P (own s).state)
    (hnext : answerFrame c f own s = .next t) : P t := by
  rcases answerFrame_next hnext with ⟨-, answer, -, rfl⟩ | ⟨-, -, rfl⟩ | ⟨-, rfl⟩
  · exact hreply _ _ _ s h
  · exact hreply _ _ _ _ hown
  · exact h

/-- An own rule that refuses or has its effect. -/
theorem leaves_keeps {P : State → Prop} (hpins : ∀ s, P s → P (drivePins s)) {r : PortResult} {s effect : State}
    (hl : leaves r s effect) (h : P s) (heffect : P effect) : P r.state := by
  rcases hl with ⟨hs, -⟩ | ⟨-, hs⟩
  · exact hs ▸ h
  · exact hs ▸ hpins effect heffect

/-! ### The bounds of the pace, with the configuration that they rest on -/

/-- What R24 bounds, with the configuration in force that the bounds on R are read from. -/
def Paced (s : State) : Prop := PaceWithin s ∧ ConfigKept s

/-- O, A, the samples of the period and R: what most operations leave of the pace; C takes charges and refunds. -/
def paceRegisters (c : Cau) : Nat × Nat × Nat × Nat := (c.occupancy, c.average, c.paceSamples, c.rate)

theorem Paced.credit_le {s : State} (h : Paced s) : s.cau.credit ≤ 1024 := h.1.1

theorem Paced.configSound {s : State} (h : Paced s) (hr : s.cfl.part = .running) : ConfigSound s.config := by
  obtain ⟨-, hforce, hsound⟩ := h
  obtain ⟨c, hc⟩ := Option.isSome_iff_exists.mp (hforce.mp hr)
  have hconfig : s.config = c := by simp [State.config, hc]
  exact hconfig ▸ hsound c hc

/-- R24's bounds on R are all that an operation on R has to keep. -/
theorem Paced.of_rate {s t : State} (h : Paced s) (hcfl : t.cfl = s.cfl) (ho : t.cau.occupancy = s.cau.occupancy)
    (ha : t.cau.average = s.cau.average) (hp : t.cau.paceSamples = s.cau.paceSamples) (hc : t.cau.credit ≤ 1024)
    (hr : s.config.rMin ≤ s.cau.rate → s.cau.rate ≤ s.config.rMax → s.config.rMin ≤ t.cau.rate ∧ t.cau.rate ≤ s.config.rMax) :
    Paced t := by
  obtain ⟨⟨-, haverage, hoccupancy, hsamples, hrate⟩, hforce, hsound⟩ := h
  refine ⟨⟨hc, ha ▸ haverage, ho ▸ hp ▸ hoccupancy, hp ▸ hsamples, fun hrun => ?_⟩, by rwa [hcfl], by rwa [hcfl]⟩
  rw [hcfl] at hrun
  rw [config_of_cfl hcfl]
  exact hr (hrate hrun).1 (hrate hrun).2

theorem Paced.of_registers {s t : State} (h : Paced s) (hcfl : t.cfl = s.cfl)
    (hpace : paceRegisters t.cau = paceRegisters s.cau) (hc : t.cau.credit ≤ 1024) : Paced t := by
  simp only [paceRegisters, Prod.mk.injEq] at hpace
  obtain ⟨ho, ha, hp, hr⟩ := hpace
  exact h.of_rate hcfl ho ha hp hc fun hmin hmax => hr.symm ▸ ⟨hmin, hmax⟩

theorem Paced.of_cau {s t : State} (h : Paced s) (hcfl : t.cfl = s.cfl) (hcau : t.cau = s.cau) : Paced t :=
  h.of_registers hcfl (by rw [hcau]) (hcau ▸ h.credit_le)

theorem paced_drivePins {s : State} (h : Paced s) : Paced (drivePins s) := h.of_cau rfl rfl

/-! ### Staging, going on air, withdrawal (R29, R30) -/

theorem paced_stage (source : Source) {s : State} (h : Paced s) : Paced (stage source s) := by
  refine h.of_registers (by simp) (by simp [paceRegisters]) ?_
  have hcredit := h.credit_le
  rw [stage_credit]
  split <;> omega

theorem paced_noteChosen (source : Source) {s : State} (h : Paced s) : Paced (noteChosen source s) := by
  cases source with
  | allstop team => exact h.of_registers rfl rfl h.credit_le
  | readback => exact h
  | presence flag => exact h
  | fragment slot index => exact h

theorem paced_arbitrate {s : State} (h : Paced s) : Paced (arbitrate s) := by
  rcases arbitrate_cases s with heq | ⟨source, -, -, -, heq⟩
  · rwa [heq]
  · rw [heq]
    exact paced_stage source (paced_noteChosen source h)

theorem paced_settle {s : State} (h : Paced s) : Paced (settle s) := paced_drivePins (paced_arbitrate h)

theorem paced_goOnAir {s : State} (h : Paced s) : Paced (goOnAir s) := by
  cases hst : s.cau.staging with
  | none => rwa [goOnAir_empty hst]
  | some st => exact h.of_registers (by simp) (by simp [paceRegisters]) (goOnAir_cau hst ▸ h.credit_le)

theorem paced_giveBack (source : Source) {s : State} (h : Paced s) : Paced (giveBack source s) := by
  cases source with
  | allstop team => exact h
  | readback => exact h
  | presence flag => exact h
  | fragment slot index =>
    have hrefund : Paced (refundCredit s) := h.of_registers rfl rfl (Nat.min_le_left _ _)
    exact hrefund.of_cau (by simp [giveBack]) (by simp [giveBack])

theorem paced_emptyStaging {s : State} (h : Paced s) : Paced (emptyStaging s) := by
  refine h.of_registers (by simp) (by simp [paceRegisters]) ?_
  unfold emptyStaging
  dsimp only
  split <;> exact h.credit_le

theorem paced_withdraw (meant : Source → Bool) {s : State} (h : Paced s) : Paced (withdraw meant s) := by
  rcases withdraw_cases meant s with heq | ⟨st, -, -, heq⟩
  · rwa [heq]
  · rw [heq]
    exact paced_giveBack st.source (paced_emptyStaging h)

theorem paced_displace (old : Staged) (team : Team) {s : State} (h : Paced s) : Paced (displace old team s) := by
  have hstaged : Paced (stage (.allstop team) (giveBack old.source s)) := paced_stage _ (paced_giveBack _ h)
  unfold displace
  dsimp only
  split
  · split
    · exact paced_goOnAir hstaged
    · exact hstaged
  · exact hstaged

theorem paced_requestAllstop (team : Team) {s : State} (h : Paced s) : Paced (requestAllstop team s) := by
  unfold requestAllstop
  split
  · exact h.of_registers rfl rfl h.credit_le
  · split
    · exact h.of_registers rfl rfl h.credit_le
    · split
      · split
        · exact h
        · exact h.of_registers rfl rfl h.credit_le
      · exact paced_displace _ team h

theorem paced_startSeries (team : Team) {s : State} (h : Paced s) : Paced (startSeries team s) :=
  paced_requestAllstop _ (h.of_cau rfl rfl)

/-! ### Orders (R25, R26) -/

theorem paced_promote {s : State} (h : Paced s) : Paced (promote s) := h.of_cau (by simp) (by simp)

theorem paced_setSlot (slot : Nat) (o : Option Order) {s : State} (h : Paced s) : Paced (setSlot slot o s) := h.of_cau rfl rfl

theorem paced_finishOrder (slot : Nat) (outcome : OrderOutcome) {s : State} (h : Paced s) : Paced (finishOrder slot outcome s) := by
  cases ho : orderAt slot s with
  | none => simpa [finishOrder, ho] using h
  | some o =>
    obtain ⟨w, hw, heq⟩ := finishOrder_of_order ho outcome
    have hpaced : Paced w := by
      rcases hw with rfl | ⟨rfl, -⟩
      · exact h
      · exact paced_withdraw _ h
    rw [heq]
    exact hpaced.of_cau (by simp) (by simp)

theorem paced_endAttempt (slot : Nat) (o : Order) {s : State} (h : Paced s) : Paced (endAttempt slot o s) := by
  unfold endAttempt
  split
  · exact paced_finishOrder slot _ h
  · split
    · exact paced_finishOrder slot _ h
    · split
      · exact paced_finishOrder slot _ h
      · exact paced_promote (paced_setSlot slot _ h)

theorem paced_fragmentCompleted (slot index : Nat) {s : State} (h : Paced s) : Paced (fragmentCompleted slot index s) := by
  unfold fragmentCompleted
  split
  · exact h
  · split
    · dsimp only
      split
      · exact paced_finishOrder slot _ (paced_setSlot slot _ h)
      · split
        · exact paced_setSlot slot _ (paced_setSlot slot _ h)
        · exact paced_endAttempt slot _ (paced_setSlot slot _ h)
    · exact h

theorem paced_cancelOrder (slot : Nat) (o : Order) {s : State} (h : Paced s) : Paced (cancelOrder slot o s) := by
  unfold cancelOrder
  split
  · exact paced_setSlot slot _ h
  · exact paced_finishOrder slot _ h

/-- R25's clamp lies within R24's bounds where R did. -/
theorem decreasedRate_within {c : Config} {rate : Nat} (hmin : c.rMin ≤ rate) (hmax : rate ≤ c.rMax) :
    c.rMin ≤ decreasedRate c rate ∧ decreasedRate c rate ≤ c.rMax := by
  unfold decreasedRate
  generalize rate / 2 ^ c.decreaseFactor = share
  omega

theorem paced_paceDecrease {s : State} (h : Paced s) : Paced (paceDecrease s) :=
  h.of_rate rfl rfl rfl rfl h.credit_le decreasedRate_within

theorem paced_paceIncrease {s : State} (h : Paced s) : Paced (paceIncrease s) := by
  refine h.of_rate rfl rfl rfl rfl h.credit_le fun hmin hmax => ?_
  rw [paceIncrease_rate]
  omega

theorem paced_waitExpired (slot : Nat) {s : State} (h : Paced s) : Paced (waitExpired slot s) := by
  unfold waitExpired
  split
  · exact h
  · split
    · exact paced_promote (paced_setSlot slot _ (paced_paceDecrease h))
    · exact paced_finishOrder slot _ h

theorem paced_memberAnswered (slot : Nat) (o : Order) (station : Station) (v : Verdict) {s : State} (h : Paced s) :
    Paced (memberAnswered slot o station v s) := by
  have hrate : Paced (if v = .accepted then paceIncrease s else s) := by
    split
    · exact paced_paceIncrease h
    · exact h
  unfold memberAnswered
  dsimp only
  split
  · exact paced_finishOrder slot _ (paced_setSlot slot _ hrate)
  · exact paced_setSlot slot _ hrate

theorem paced_readbackArrived (b : Burst) {s : State} (h : Paced s) : Paced (readbackArrived b s) := by
  unfold readbackArrived
  split
  · split
    · exact paced_memberAnswered _ _ _ _ h
    · exact h.of_cau rfl rfl
  · exact h.of_cau rfl rfl

/-! ### Team (R105, R109, R110, R117) -/

theorem paced_requestPresence (flag : PresenceFlag) {s : State} (h : Paced s) : Paced (requestPresence flag s) :=
  paced_withdraw _ (h.of_cau rfl rfl)

theorem paced_clearTeam {s : State} (h : Paced s) : Paced (clearTeam s) :=
  paced_withdraw _ (h.of_cau (by simp) (by simp))

theorem paced_joined (team : Team) {s : State} (h : Paced s) : Paced (joined team s) :=
  have hcleared : Paced (clearTeam { s with tmu.leavePending := false }) := paced_clearTeam (h.of_cau rfl rfl)
  paced_requestPresence .joining (hcleared.of_cau rfl rfl)

theorem paced_presenceCompleted (flag : PresenceFlag) {s : State} (h : Paced s) : Paced (presenceCompleted flag s) := by
  cases flag with
  | normal => exact h
  | joining => exact h.of_registers rfl rfl h.credit_le
  | leaving =>
    unfold presenceCompleted
    dsimp only
    split
    · exact (paced_clearTeam h).of_cau rfl rfl
    · exact h

/-! ### A burst received (R11 to R14) -/

theorem paced_routeHomeBurst (b : Burst) (stamp : Stamp) {s : State} (h : Paced s) : Paced (routeHomeBurst b stamp s) := by
  unfold routeHomeBurst
  split
  · exact h.of_cau (by simp) (by simp)
  · split
    · exact paced_readbackArrived b h
    · exact h
  · exact h.of_cau (by simp) (by simp)
  · exact h.of_cau (by simp) (by simp)

theorem paced_sortByTeam (b : Burst) (stamp : Stamp) {s : State} (h : Paced s) : Paced (sortByTeam b stamp s) := by
  have hstop : Paced (honourAllstop stamp s) := h.of_cau (by simp) (by simp)
  have hforeign : Paced (countForeign s) := h.of_cau rfl rfl
  have hpeer : Paced (peerStep b stamp s) := h.of_cau (by simp) (by simp)
  unfold sortByTeam
  split
  · split
    · exact hstop
    · exact hforeign
  · split
    · exact paced_routeHomeBurst b stamp hpeer
    · split
      · split
        · exact hstop
        · exact hforeign
      · exact hforeign

theorem paced_goodBurst (b : Burst) (stamp : Stamp) {s : State} (h : Paced s) : Paced (goodBurst b stamp s) := by
  have hgood : Paced (countGood s) := h.of_cau rfl rfl
  unfold goodBurst
  dsimp only
  split
  · exact hgood.of_cau rfl rfl
  · split
    · exact hgood.of_cau rfl rfl
    · refine paced_sortByTeam b stamp ?_
      split
      · exact hgood.of_registers rfl rfl hgood.credit_le
      · exact hgood

theorem paced_classify (octets : List Byte) (stamp : Stamp) {s : State} (h : Paced s) : Paced (classify octets stamp s) := by
  have hended : Paced { s with rxc.reception := none } := h.of_cau rfl rfl
  unfold classify
  dsimp only
  split
  · exact paced_goodBurst _ stamp hended
  · exact hended.of_cau (by simp) (by simp)

/-! ### The access sequence and its completions (R37 to R40, R51) -/

theorem paced_gapCompleted {s : State} (h : Paced s) : Paced (gapCompleted s) := by
  unfold gapCompleted
  split
  · exact paced_goOnAir h
  · exact h.of_registers rfl rfl h.credit_le

theorem paced_slotCompleted {s : State} (h : Paced s) : Paced (slotCompleted s) := by
  unfold slotCompleted
  dsimp only
  split
  · exact paced_goOnAir (h.of_registers rfl rfl h.credit_le)
  · exact h.of_registers rfl rfl h.credit_le

theorem paced_forceExpired {s : State} (h : Paced s) : Paced (forceExpired s) := by
  unfold forceExpired
  split
  · exact h.of_registers rfl rfl h.credit_le
  · exact paced_goOnAir h

theorem paced_allstopCompleted {s : State} (h : Paced s) : Paced (allstopCompleted s) := by
  unfold allstopCompleted
  split
  · exact h
  · split
    · exact h.of_cau rfl rfl
    · exact paced_requestAllstop _ (h.of_cau rfl rfl)

theorem paced_reportCompletion (source : Source) {s : State} (h : Paced s) : Paced (reportCompletion source s) := by
  have hsilent : Paced { s with tmu.presenceCount := 0 } := h.of_cau rfl rfl
  cases source with
  | allstop team => exact paced_allstopCompleted hsilent
  | readback => exact hsilent
  | presence flag => exact paced_presenceCompleted flag hsilent
  | fragment slot index => exact paced_fragmentCompleted slot index hsilent

theorem paced_leaveOnAir {s : State} (h : Paced s) : Paced (leaveOnAir s) := by
  unfold leaveOnAir
  split
  · split
    · exact paced_goOnAir h
    · exact h.of_registers rfl rfl h.credit_le
  · exact h.of_registers rfl rfl h.credit_le

theorem paced_onAirCompleted {s : State} (h : Paced s) : Paced (onAirCompleted s) := by
  unfold onAirCompleted
  split
  · exact paced_leaveOnAir (paced_reportCompletion _ (h.of_registers rfl rfl h.credit_le))
  · exact h

/-! ### Samples and pace timer expiries (R18 to R21) -/

/-- A sample counts in the period, and in O at most once; R, C and A stay. -/
theorem sampled_counts (c : Config) (level : Level) (insideBurst : Bool) (cau : Cau) :
    (sampled c level insideBurst cau).occupancy ≤ cau.occupancy + 1 ∧
      (sampled c level insideBurst cau).paceSamples = cau.paceSamples + 1 ∧
      (sampled c level insideBurst cau).average = cau.average ∧ (sampled c level insideBurst cau).rate = cau.rate ∧
      (sampled c level insideBurst cau).credit = cau.credit := by
  by_cases ha : cau.access = .onAir
  · simp [sampled_onAir _ _ _ ha]
  · rw [sampled_not_onAir rfl ha]
    simp only [and_self, and_true]
    split <;> omega

theorem paceSamples_lt_of_not_sampleWaits {s : State} (hr : running s = true) (hw : sampleWaits s = false) :
    s.cau.paceSamples < 200 := by
  simp only [sampleWaits, paceDue, hr, Bool.true_and, Bool.or_eq_false_iff, decide_eq_false_iff_not] at hw
  omega

theorem paced_sampled (level : Level) {s : State} (h : Paced s) (hr : running s = true) (hw : sampleWaits s = false) :
    Paced { s with cau := sampled s.config level s.rxc.reception.isSome s.cau } := by
  have hroom := paceSamples_lt_of_not_sampleWaits hr hw
  obtain ⟨⟨hcredit, haverage, hoccupancy, -, hrate⟩, hconfig⟩ := h
  obtain ⟨ho, hp, ha, hkept, hc⟩ := sampled_counts s.config level s.rxc.reception.isSome s.cau
  refine ⟨⟨?_, ?_, ?_, ?_, ?_⟩, hconfig⟩
  · exact hc ▸ hcredit
  · exact ha ▸ haverage
  · dsimp only
    omega
  · dsimp only
    omega
  · exact hkept ▸ hrate

/-- R21 step 1: 800 is where A settles when all 200 samples of every period are busy. -/
theorem foldedAverage_le {average occupancy : Nat} (ha : average ≤ 800) (ho : occupancy ≤ 200) :
    foldedAverage average occupancy ≤ 800 := by
  unfold foldedAverage
  omega

theorem paced_paceExpired {s : State} (h : Paced s) : Paced { s with cau := paceExpired s.config s.cau } := by
  obtain ⟨⟨-, haverage, hoccupancy, hsamples, hrate⟩, hconfig⟩ := h
  refine ⟨⟨Nat.min_le_left _ _, foldedAverage_le haverage (hoccupancy.trans hsamples), Nat.le_refl 0, Nat.zero_le _, fun hr => ?_⟩,
    hconfig⟩
  obtain ⟨hmin, hmax⟩ := hrate hr
  change s.config.rMin ≤ (if s.cau.crowdedHeard then decreasedRate s.config s.cau.rate else s.cau.rate) ∧
    (if s.cau.crowdedHeard then decreasedRate s.config s.cau.rate else s.cau.rate) ≤ s.config.rMax
  split
  · exact decreasedRate_within hmin hmax
  · exact ⟨hmin, hmax⟩

/-! ### Start-up (R158 to R165) -/

/-- Outside RUNNING with no configuration in force, C, A and O are all that is bounded. -/
theorem Paced.of_not_running {s t : State} (h : Paced s) (hcau : t.cau = s.cau) (hr : t.cfl.part ≠ .running)
    (hf : t.cfl.inForce = none) : Paced t := by
  obtain ⟨⟨hcredit, haverage, hoccupancy, hsamples, -⟩, -⟩ := h
  refine ⟨⟨hcau ▸ hcredit, hcau ▸ haverage, hcau ▸ hoccupancy, hcau ▸ hsamples, fun h => absurd h hr⟩, ?_⟩
  simp [ConfigKept, hr, hf]

theorem paced_resetTaken (s : State) : Paced (resetTaken s) := by
  refine ⟨⟨?_, ?_, ?_, ?_, ?_⟩, ?_⟩ <;> simp [resetTaken, State.reset, Cau.reset, Cfl.reset, ConfigKept]

theorem paced_beginLoad {s : State} (h : Paced s) : Paced (beginLoad s) := h.of_not_running rfl (by simp [beginLoad]) rfl

theorem paced_endLoadFault (fault : FaultCode) {s : State} (h : Paced s) : Paced (endLoadFault fault s) :=
  h.of_not_running rfl (by simp [endLoadFault]) rfl

/-- The entry values of R33, middle column, lie within R24's bounds. -/
theorem paced_of_entry {c : Config} (hc : ConfigSound c) {t : State} {generator : Option (BitVec 15)}
    (hcau : t.cau = { cauAtEntry c Cau.reset with generator := generator }) (hr : t.cfl.part = .running) (hf : t.cfl.inForce = some c) :
    Paced t := by
  obtain ⟨-, hlow, hhigh, -⟩ := hc.rates
  have hconfig : t.config = c := by simp [State.config, hf]
  refine ⟨⟨?_, ?_, ?_, ?_, fun _ => ?_⟩, ?_, ?_⟩
  · simp [hcau, cauAtEntry]
  · simp [hcau, cauAtEntry, Cau.reset]
  · simp [hcau, cauAtEntry, Cau.reset]
  · simp [hcau, cauAtEntry, Cau.reset]
  · rw [hconfig, hcau]
    exact ⟨hlow, hhigh⟩
  · simp [hr, hf]
  · intro d hd
    rw [hf] at hd
    cases hd
    exact hc

theorem paced_enterRunning {c : Config} (hc : ConfigSound c) (s : State) : Paced (enterRunning c s) :=
  paced_of_entry hc rfl rfl rfl

/-- A block that fails no check of R161 gives a sound configuration. -/
theorem configSound_of_firstBadField_none {block : List Byte} (h : firstBadField block = none) : ConfigSound (readConfig block) := by
  have hall : ∀ check ∈ fieldChecks block, check.1 = true := by
    simpa [firstBadField] using h
  simp only [fieldChecks, List.forall_mem_cons, decide_eq_true_eq] at hall
  obtain ⟨-, hstation, hteam, hlow, hrange, hbusy, hhysteresis, hcrowd, hdecrease, hmin, hinit, hmax, hlimit, -⟩ := hall
  exact ⟨hstation, hteam, ⟨hlow, hrange⟩, ⟨hbusy.1, hbusy.2, hhysteresis⟩, hcrowd, hdecrease, ⟨hmin, hinit, hmax⟩, hlimit⟩

theorem paced_checkBlock (block : List Byte) {s : State} (h : Paced s) : Paced (checkBlock block s) := by
  unfold checkBlock
  split
  · exact paced_endLoadFault _ h
  · split
    · exact paced_endLoadFault _ h
    · rename_i hpassed
      exact paced_enterRunning (configSound_of_firstBadField_none hpassed) s

theorem paced_octetRead (x : Byte) {s : State} (h : Paced s) : Paced (octetRead x s) := by
  unfold octetRead
  dsimp only
  split
  · exact paced_checkBlock _ h
  · exact h

theorem restartRunning_cfl (s : State) : (restartRunning s).cfl = s.cfl := by
  unfold restartRunning
  dsimp only
  split <;> simp

/-- R165: the RESTART values are those of entry, but for the generator. -/
theorem restartRunning_cau (s : State) :
    (restartRunning s).cau = { cauAtEntry s.config Cau.reset with generator := s.cau.generator } := by
  have hconfig : (putNoHolder s).config = s.config := config_of_cfl (by simp)
  unfold restartRunning cauAtEntry
  dsimp only
  split
  · simp [hconfig]
  · rfl

theorem paced_restartRunning {s : State} (h : Paced s) (hr : running s = true) : Paced (restartRunning s) := by
  have hrun : s.cfl.part = .running := of_decide_eq_true hr
  obtain ⟨c, hc⟩ := Option.isSome_iff_exists.mp (h.2.1.mp hrun)
  have hforce : s.cfl.inForce = some s.config := by simp [State.config, hc]
  have hcfl := restartRunning_cfl s
  exact paced_of_entry (h.configSound hrun) (restartRunning_cau s) (hcfl ▸ hrun) (hcfl ▸ hforce)

/-! ### Every command -/

theorem paced_withReply (code : Byte) (answer : ReplyCode) (data : List Byte) (s : State) (h : Paced s) :
    Paced (withReply code answer data s) := h.of_cau rfl rfl

theorem paced_tick (s : State) (h : Paced s) : Paced (tick s) := by
  unfold tick
  dsimp only
  split
  · exact h.of_registers rfl rfl h.credit_le
  · exact h.of_cau rfl rfl

theorem paced_answerFrame {c : PortCommand} {f : Frame} {own : State → PortResult} {s t : State} (h : Paced s)
    (hown : Paced (own s).state) (hnext : answerFrame c f own s = .next t) : Paced t :=
  answerFrame_keeps paced_withReply h hown hnext

theorem paced_leaves {r : PortResult} {s effect : State} (hl : leaves r s effect) (h : Paced s) (heffect : Paced effect) :
    Paced r.state := leaves_keeps (fun _ => paced_drivePins) hl h heffect

theorem paced_cancelInSlot (slot : Byte) {s : State} (h : Paced s) : Paced (cancelInSlot slot s).state := by
  rcases cancelInSlot_leaves slot s with ⟨heq, -⟩ | ⟨o, -, -, -, heq⟩
  · rwa [heq]
  · rw [heq]
    exact paced_settle (paced_cancelOrder _ o h)

theorem paced_takeCall {s : State} (h : Paced s) : Paced (takeCall s).state := by
  rcases takeCall_leaves s with ⟨heq, -⟩ | ⟨r, rest, -, heq⟩
  · exact heq ▸ h
  · exact heq ▸ h.of_cau rfl rfl

theorem paced_releaseCall (handle : Byte) {s : State} (h : Paced s) : Paced (releaseCall handle s).state := by
  rcases releaseCall_leaves handle s with ⟨heq, -⟩ | ⟨call, -, -, -, heq⟩
  · exact heq ▸ h
  · exact heq ▸ h.of_cau rfl rfl

theorem paced_submitOrder (sub : Submission) {s : State} (h : Paced s) : Paced (submitOrder sub s).state := by
  obtain ⟨slot, hl, -⟩ := submitOrder_leaves sub s
  exact paced_leaves hl h (paced_arbitrate (h.of_cau (by simp) (by simp)))

theorem paced_sendAllstop (scope : Byte) {s : State} (h : Paced s) : Paced (sendAllstop scope s).state := by
  obtain ⟨team, hl⟩ := sendAllstop_leaves scope s
  exact paced_leaves hl h (paced_arbitrate (paced_startSeries team h))

theorem paced_setTerminal (present : Bool) {s : State} (h : Paced s) : Paced (accept [] (setTerminal present s)).state := by
  have hset : Paced (setTerminal present s) := h.of_cau (by simp) (by simp)
  exact paced_drivePins hset

theorem paced_restart {s : State} (h : Paced s) : Paced (restart s).state := by
  unfold restart
  split
  · rename_i hr
    exact paced_settle (paced_restartRunning h hr)
  · exact paced_drivePins (paced_beginLoad h)

theorem paced_burstReceived {octets : List Byte} {s t : State} (h : Paced s) (hnext : execBurstReceived octets s = .next t) :
    Paced t := by
  rcases execBurstReceived_next hnext with ⟨stamp, -, -, rfl⟩ | ⟨-, rfl⟩
  · exact paced_settle (paced_classify octets stamp h)
  · exact h

theorem paced_emergencyKeyEdge {s t : State} (h : Paced s) (hnext : execEmergencyKeyEdge s = .next t) : Paced t := by
  rcases execEmergencyKeyEdge_next hnext with ⟨-, rfl⟩ | ⟨-, -, rfl⟩ | ⟨-, -, rfl⟩
  · exact h
  · exact h.of_cau rfl rfl
  · exact paced_settle (paced_startSeries _ (h.of_cau rfl rfl))

theorem paced_exec (c : Instr) (s t : State) (h : Paced s) (hnext : exec c s = .next t) : Paced t := by
  cases c with
  | reset cause =>
    rcases execReset_next cause hnext with ⟨-, rfl⟩ | ⟨-, rfl⟩
    · exact paced_drivePins (paced_resetTaken s)
    · exact h
  | resetEnd => exact taken_keeps (execResetEnd_next hnext) h (fun _ => paced_drivePins (paced_beginLoad h))
  | configOctetRead octet => exact taken_keeps (execConfigOctetRead_next octet hnext) h (fun _ => paced_settle (paced_octetRead octet h))
  | noMemory => exact taken_keeps (execNoMemory_next hnext) h (fun _ => paced_drivePins (paced_endLoadFault _ h))
  | burstSync => exact taken_keeps (execBurstSync_next hnext) h (fun _ => h.of_cau (by simp) (by simp))
  | burstReceived octets => exact paced_burstReceived h hnext
  | shortBurst => exact taken_keeps (execShortBurst_next hnext) h (fun _ => h.of_cau rfl rfl)
  | levelSample level =>
    exact taken_keeps (execLevelSample_next level hnext) h (fun ⟨hr, hw⟩ => paced_drivePins (paced_sampled level h hr hw))
  | paceTimerExpiry => exact taken_keeps (execPaceTimerExpiry_next hnext) h (fun _ => paced_settle (paced_paceExpired h))
  | gapComplete => exact taken_keeps (execGapComplete_next hnext) h (fun _ => paced_settle (paced_gapCompleted h))
  | slotComplete => exact taken_keeps (execSlotComplete_next hnext) h (fun _ => paced_settle (paced_slotCompleted h))
  | onAirCompletion => exact taken_keeps (execOnAirCompletion_next hnext) h (fun _ => paced_settle (paced_onAirCompleted h))
  | forceTimerExpiry => exact taken_keeps (execForceTimerExpiry_next hnext) h (fun _ => paced_settle (paced_forceExpired h))
  | readbackWaitExpiry slot =>
    exact taken_keeps (execReadbackWaitExpiry_next slot hnext) h (fun _ => paced_settle (paced_waitExpired _ h))
  | agingTimerExpiry =>
    have hframe := ageContexts_frame { s with asu.agingMs := s.asu.agingMs - 100 }
    exact taken_keeps (execAgingTimerExpiry_next hnext) h (fun _ => h.of_cau (by simp [hframe]) (by simp [hframe]))
  | silenceTimerExpiry => exact taken_keeps (execSilenceTimerExpiry_next hnext) h (fun _ => h.of_cau (by simp) (by simp))
  | presenceTimerExpiry =>
    exact taken_keeps (execPresenceTimerExpiry_next hnext) h (fun _ => paced_settle (h.of_cau (by simp) (by simp)))
  | offerTimerExpiry => exact taken_keeps (execOfferTimerExpiry_next hnext) h (fun _ => h.of_cau (by simp) (by simp))
  | holdExpiry => exact taken_keeps (execHoldExpiry_next hnext) h (fun _ => h.of_cau rfl rfl)
  | emergencyKeyEdge => exact paced_emergencyKeyEdge h hnext
  | emergencyKeyRelease =>
    rcases execEmergencyKeyRelease_next hnext with ⟨-, rfl⟩ | ⟨-, rfl⟩
    · exact h.of_cau rfl rfl
    · exact h
  | cabStopTransition active =>
    rcases execCabStopTransition_next hnext with ⟨-, rfl⟩ | ⟨-, -, rfl⟩ | ⟨-, -, rfl⟩
    · exact h
    · exact h.of_cau rfl rfl
    · exact h.of_cau (by simp) (by simp)
  | selectActive =>
    rcases execSelectActive_next hnext with ⟨-, rfl⟩ | ⟨-, rfl⟩
    · exact h.of_cau rfl rfl
    · exact h
  | selectInactive =>
    rcases execSelectInactive_next hnext with ⟨-, rfl⟩ | ⟨-, rfl⟩
    · exact h.of_cau rfl rfl
    · exact h
  | badCommand code f =>
    rcases execBadCommand_next hnext with ⟨-, rfl⟩ | ⟨-, rfl⟩
    · exact paced_withReply _ _ _ s h
    · exact h
  | readStatus f => exact paced_answerFrame h (h.of_cau rfl rfl) hnext
  | submitOrder f => exact paced_answerFrame h (paced_submitOrder _ h) hnext
  | cancelOrder f => exact paced_answerFrame h (paced_cancelInSlot _ h) hnext
  | takeCall f => exact paced_answerFrame h (paced_takeCall h) hnext
  | releaseCall f => exact paced_answerFrame h (paced_releaseCall _ h) hnext
  | takeException f => exact paced_answerFrame h (paced_leaves (takeException_leaves s) h (h.of_cau rfl rfl)) hnext
  | takeResult f => exact paced_answerFrame h (paced_leaves (takeResult_leaves s) h (h.of_cau (by simp) (by simp))) hnext
  | readPeers f => exact paced_answerFrame h (paced_drivePins h) hnext
  | sendAllstop f => exact paced_answerFrame h (paced_sendAllstop _ h) hnext
  | stopRequest f => exact paced_answerFrame h (paced_setTerminal true h) hnext
  | clearTerminalStop f => exact paced_answerFrame h (paced_setTerminal false h) hnext
  | joinTeam f => exact paced_answerFrame h (paced_leaves (joinTeam_leaves _ s) h (paced_arbitrate (paced_joined _ h))) hnext
  | leaveTeam f =>
    have hrequested : Paced (requestPresence .leaving { s with tmu.leavePending := true }) :=
      paced_requestPresence _ (h.of_cau rfl rfl)
    exact paced_answerFrame h (paced_leaves (leaveTeam_leaves s) h (paced_arbitrate hrequested)) hnext
  | narrowRange f => exact paced_answerFrame h (paced_leaves (narrowRange_leaves _ _ s).1 h (h.of_cau rfl rfl)) hnext
  | readCounts f => exact paced_answerFrame h (paced_drivePins h) hnext
  | readAndClearCounts f => exact paced_answerFrame h (h.of_cau rfl rfl) hnext
  | setMask f => exact paced_answerFrame h (paced_leaves (setMask_leaves _ s) h (h.of_cau rfl rfl)) hnext
  | restart f => exact paced_answerFrame h (paced_restart h) hnext

/-- Settles O50: the bounds and the configuration they rest on are kept together, command by command. -/
theorem paceStaysInItsBounds : Obligations.PaceStaysInItsBounds := by
  intro s t hpace hconfig hstep
  exact step_keeps (fun _ _ h => h.of_cau rfl rfl) paced_tick paced_exec ⟨hpace, hconfig⟩ hstep

end Sys2Proof.Machine
end

section
/-! PROOF. A staging (03 sections 3.1 and 3.3): one advance of the generator, the window of each kind, the draw, and the charge of a
fragment. -/

namespace Sys2Proof.Machine

/-! ### The generator and the window (R42, R43) -/

/-- The shift leaves bit 0 clear, so putting the feedback bit there is an addition. -/
theorem advanceGenerator_eq_ofNat (g : BitVec 15) :
    advanceGenerator g = BitVec.ofNat 15 (2 * g.toNat + (g.getLsbD 14 ^^ g.getLsbD 13).toNat) := by
  unfold advanceGenerator
  generalize (g.getLsbD 14 ^^ g.getLsbD 13) = bit
  have hdisjoint : g <<< 1 &&& (BitVec.ofBool bit).setWidth 15 = 0#15 := by
    ext i hi
    cases i <;> simp
  rw [← BitVec.add_eq_or_of_and_eq_zero _ _ hdisjoint]
  apply BitVec.eq_of_toNat_eq
  cases bit <;> simp [BitVec.toNat_add, BitVec.toNat_shiftLeft, Nat.shiftLeft_eq] <;> omega

theorem wBase_eq_two_pow (c : Config) : wBase c = 2 ^ (c.wBaseCode.toNat + 2) := by
  unfold wBase
  ring

theorem baseWindow_fragment {slot : Nat} {s : State} {o : Order} (index : Nat) (h : orderAt slot s = some o) :
    baseWindow s (.fragment slot index) = min 128 (2 ^ (s.config.wBaseCode.toNat + 2) * 2 ^ (o.attempts - 1)) := by
  simp only [baseWindow, h, Option.map_some, Option.getD_some, wBase_eq_two_pow]

/-! ### The staging register and the source (R35, R36, R92) -/

/-- A burst enters the staging register, and IDLE becomes GAP with its counts at 0. -/
def fillStaging (generator : BitVec 15) (staged : Staged) (s : State) : State :=
  { s with
    cau.generator := some generator
    cau.staging := some staged
    cau.access := if s.cau.access = .idle then .gap else s.cau.access
    cau.gapCount := if s.cau.access = .idle then 0 else s.cau.gapCount
    cau.slotCount := if s.cau.access = .idle then 0 else s.cau.slotCount }

/-- R51: only an ALLSTOP is forced. -/
def forceAtStaging : Source → ForceTimer
  | .allstop _ => .running 20
  | _ => .none

/-- A seeded generator advances once, and the draw is taken from the advanced value. -/
theorem stage_eq_noteStaged_fillStaging (source : Source) {s : State} {g : BitVec 15} (h : s.cau.generator = some g) :
    stage source s = noteStaged source (fillStaging (advanceGenerator g)
      { burst := composed s source, source := source, window := windowOf s source,
        backoff := (advanceGenerator g).toNat % windowOf s source, force := forceAtStaging source } s) := by
  by_cases hidle : s.cau.access = .idle
  · cases source <;> simp only [stage, fillStaging, forceAtStaging, h, hidle, Option.map_some, drawFrom, if_true]
  · cases source <;> simp only [stage, fillStaging, forceAtStaging, h, hidle, Option.map_some, drawFrom, if_false]

theorem setPlace_of_orderAt {slot : Nat} (place : FragmentPlace) {s : State} {o : Order} (h : orderAt slot s = some o) :
    setPlace slot place s = setSlot slot (some { o with place := place }) s := by
  unfold setPlace
  rw [h]

theorem noteStaged_fragment {slot : Nat} {s : State} {o : Order} (index : Nat) (h : orderAt slot s = some o) :
    noteStaged (.fragment slot index) s =
      { s with
        cau.credit := s.cau.credit - 256
        odu.ool := s.odu.ool.set slot (some { o with place := .staged }) } := by
  have hcharged : orderAt slot (chargeCredit s) = some o := by simpa only [orderAt, chargeCredit_odu] using h
  calc noteStaged (.fragment slot index) s
      _ = setPlace slot .staged (chargeCredit s) := rfl
      _ = setSlot slot (some { o with place := .staged }) (chargeCredit s) := setPlace_of_orderAt .staged hcharged
      _ = _ := by rw [setSlot, chargeCredit]

/-- Settles O26: every source's staging is `fillStaging`; only a fragment's source is noted besides, on the slot it came from. -/
theorem stagingFixesWindowAndDraw : Obligations.StagingFixesWindowAndDraw := by
  intro source g s hseeded g' hg' base w hw staged hstaged
  subst hg' hw hstaged
  have hstage := stage_eq_noteStaged_fillStaging source hseeded
  rw [advanceGenerator_eq_ofNat] at hstage
  refine ⟨?allstop, ?readback, ?presence, ?fragment⟩
  case allstop =>
    rintro team rfl rfl
    exact hstage
  case readback =>
    rintro rfl rfl
    exact hstage
  case presence =>
    rintro flag rfl rfl
    exact hstage
  case fragment =>
    rintro slot index o rfl horder rfl
    rw [← baseWindow_fragment index horder]
    exact hstage.trans (noteStaged_fragment index horder)

end Sys2Proof.Machine
end

section
/-! PROOF. Calls from their first fragment to their delivery (04 sections 4.2 to 4.6; 07 sections 7.4 and 7.6): what each operation of
the Assembly Unit does, case by case, and the statements about fragments, completion, delivery and overheard calls. -/

namespace Sys2Proof.Machine

/-! ### Queues, pool and causes -/

theorem offerReadback_held {e : ReadbackEntry} {s : State}
    (h : ∃ x ∈ s.odu.rbq, x.sender = e.sender ∧ x.callNumber = e.callNumber) : offerReadback e s = s := by
  rw [offerReadback, if_pos (by simpa using h)]

theorem offerReadback_full (e : ReadbackEntry) {s : State} (h : 8 ≤ s.odu.rbq.length) : offerReadback e s = s := by
  rw [offerReadback, if_pos h, ite_self]

theorem offerReadback_new {e : ReadbackEntry} {s : State}
    (hnew : ∀ x ∈ s.odu.rbq, ¬ (x.sender = e.sender ∧ x.callNumber = e.callNumber)) (hroom : s.odu.rbq.length < 8) :
    offerReadback e s = { s with odu.rbq := s.odu.rbq ++ [e] } := by
  rw [offerReadback, if_neg (by simpa using hnew), if_neg (Nat.not_le.mpr hroom)]

theorem raiseException_room (e : ExceptionEntry) {s : State} (h : s.asu.exq.length < 16) :
    raiseException e s = { s with asu.exq := s.asu.exq ++ [e] } := if_pos h

theorem raiseException_full (e : ExceptionEntry) {s : State} (h : 16 ≤ s.asu.exq.length) :
    raiseException e s = { s with tpt.flags.exqOverflow := true } := if_neg (Nat.not_lt.mpr h)

theorem takeBuffer_of_free {buffer : BufferNumber} {free : List BufferNumber} {s : State} (body : List Byte)
    (h : s.bpl.free = buffer :: free) :
    takeBuffer buffer body s = { s with bpl.free := free, bpl.memory := writeBuffer s.bpl.memory buffer body } := by
  rw [takeBuffer, h, List.tail_cons]

/-- Where a locomotive's set holds RADIO_STOP already, R128 leaves set and flag alone, and so does putting it in again. -/
theorem putRadioStop_of_locomotive {s : State} (h : isLocomotive s = true) :
    putRadioStop s = { s with
      stu.causes.radioStop := true
      tpt.flags.causesChanged := s.tpt.flags.causesChanged || !s.stu.causes.radioStop } := by
  unfold putRadioStop
  rcases setCauses_cases { s.stu.causes with radioStop := true } s with ⟨-, hchange, hset⟩ | ⟨hportable | hsame, hset⟩
  · have hnew : s.stu.causes.radioStop = false := by
      rw [← Bool.not_eq_true]
      intro hold
      exact hchange (by rw [← hold])
    simp [hset, hnew]
  · simp [h] at hportable
  · have hold : s.stu.causes.radioStop = true := by rw [← hsame]
    rw [hset]
    simp [hsame, hold]

/-! ### Call types (R6) -/

/-- The code of each type that a locomotive gives a verdict of its own. -/
theorem CallType.ofByte_eq_some_iff (b : Byte) :
    (CallType.ofByte b = some .move ↔ b = 1) ∧ (CallType.ofByte b = some .countdown ↔ b = 2) ∧
    (CallType.ofByte b = some .stop ↔ b = 3) ∧ (CallType.ofByte b = some .release ↔ b = 4) ∧
    (CallType.ofByte b = some .handoverOffer ↔ b = 5) ∧ (CallType.ofByte b = some .handoverTake ↔ b = 6) ∧
    (CallType.ofByte b = some .relinquish ↔ b = 7) := by
  unfold CallType.ofByte
  split <;> simp_all [BitVec.toNat_eq]

theorem CallType.ofByte_eq_stop_iff {b : Byte} : CallType.ofByte b = some .stop ↔ b = 3 := by
  obtain ⟨-, -, hstop, -⟩ := CallType.ofByte_eq_some_iff b
  exact hstop

/-! ### Verdicts (R63, R119) -/

theorem decideVerdict_portable (sender : Station) (callType : Byte) {s : State} (h : isLocomotive s = false) :
    decideVerdict sender callType s = (.accepted, s) := by simp [decideVerdict, h]

/-- A type that is none of 1 to 4, 6 and 7 has no verdict of its own, whether it is 5 or above 7. -/
theorem decideVerdict_other (sender : Station) {callType : Byte} (s : State)
    (h : callType ≠ 1 ∧ callType ≠ 2 ∧ callType ≠ 3 ∧ callType ≠ 4 ∧ callType ≠ 6 ∧ callType ≠ 7) :
    decideVerdict sender callType s = (.accepted, s) := by
  obtain ⟨hmove, hcountdown, hstop, hrelease, -, htake, hrelinquish⟩ := CallType.ofByte_eq_some_iff callType
  unfold decideVerdict
  split
  · split <;> simp_all
  · rfl

theorem decideVerdict_movement (sender : Station) {callType : Byte} {s : State} (hloc : isLocomotive s = true)
    (htype : callType = 1 ∨ callType = 2) : decideVerdict sender callType s = (moveVerdict sender s, s) := by
  rw [decideVerdict, if_pos hloc]
  rcases htype with rfl | rfl <;> rfl

theorem moveVerdict_notHolder {sender : Station} {s : State} (h : s.tmu.control.holder ≠ some sender) :
    moveVerdict sender s = .refusedNotHolder := by simp [moveVerdict, isHolder, h]

theorem moveVerdict_stopped {sender : Station} {s : State} (hholder : s.tmu.control.holder = some sender)
    (h : s.stu.causes ≠ {}) : moveVerdict sender s = .refusedStopped := by
  simp [moveVerdict, isHolder, Causes.isEmpty, hholder, h]

theorem moveVerdict_accepted {sender : Station} {s : State} (hholder : s.tmu.control.holder = some sender)
    (h : s.stu.causes = {}) : moveVerdict sender s = .accepted := by
  simp [moveVerdict, isHolder, Causes.isEmpty, hholder, h]

theorem partActed_portable (callType : Byte) {s : State} (h : isLocomotive s = false) : partActed callType s = false := by
  simp [partActed, h]

theorem partActed_of_type {callType : Byte} {s : State} (hloc : isLocomotive s = true)
    (h : callType = 3 ∨ callType = 4 ∨ callType = 6 ∨ callType = 7) : partActed callType s = true := by
  rw [partActed, hloc]
  rcases h with rfl | rfl | rfl | rfl <;> rfl

theorem not_partActed_of_type {callType : Byte} (s : State)
    (h : callType ≠ 3 ∧ callType ≠ 4 ∧ callType ≠ 6 ∧ callType ≠ 7) : partActed callType s = false := by
  obtain ⟨-, -, hstop, hrelease, -, htake, hrelinquish⟩ := CallType.ofByte_eq_some_iff callType
  unfold partActed
  split <;> simp_all

/-! ### Delivery (R64, R65) -/

/-- The read-back is offered without a look at the peers, so what is remembered goes into the table as it was. -/
theorem rememberDelivered_offerIfConfirm (c : Context) (d : Digest) (v : Verdict) (s : State) :
    rememberDelivered c d v (offerIfConfirm c d v s) = { offerIfConfirm c d v s with
      tmu.peers := s.tmu.peers.map (fun p => if p.station = c.sender then
        { p with lastDelivered := some { callNumber := c.callNumber, digest := d, verdict := v } } else p) } := by
  simp [rememberDelivered, storeDelivered, updatePeer]

/-- On a locomotive a record says whether its sender is the holder (R66). -/
theorem recordOf_locomotive (c : Context) (lastStamp : Stamp) {s : State} (h : isLocomotive s = true) :
    recordOf c lastStamp s =
      { sender := c.sender, senderRole := c.senderRole, target := c.target, callNumber := c.callNumber, callType := c.callType,
        length := c.length, buffers := c.buffers, firstStamp := c.firstStamp, lastStamp := lastStamp, confirm := c.confirm,
        fromHolder := decide (s.tmu.control.holder = some c.sender), crowdedSeen := c.crowdedSeen, verdict := .accepted } := by
  rw [recordOf, fromHolder, h, Bool.true_and, isHolder]

/-- A record looks at the role and the control state alone, which a read-back and a remembered call leave as they were. -/
theorem placeRecord_of_agree (i : Nat) (c : Context) (stamp : Stamp) {s t : State} (hcfl : t.cfl = s.cfl) (hasu : t.asu = s.asu)
    (hcontrol : t.tmu.control = s.tmu.control) : placeRecord i c stamp t = { t with
      asu.contexts := s.asu.contexts.set i none
      asu.rcq := s.asu.rcq ++ [recordOf c stamp s] } := by
  have hrecord : recordOf c stamp t = recordOf c stamp s := by
    simp only [recordOf, fromHolder, isHolder, isLocomotive_of_cfl hcfl, hcontrol]
  simp only [placeRecord, vacate, hrecord, hasu]

theorem deliverPartActed_room (i : Nat) (c : Context) (d : Digest) (index : Nat) (stamp : Stamp) {s : State}
    (h : s.asu.rcq.length < 16) : deliverPartActed i c d .accepted index stamp s =
      placeRecord i c stamp (rememberDelivered c d .accepted (offerIfConfirm c d .accepted s)) := by
  simp [deliverPartActed, rcqHasRoom, h]

theorem deliverPartActed_full (i : Nat) (c : Context) (d : Digest) (index : Nat) (stamp : Stamp) {s : State}
    (h : 16 ≤ s.asu.rcq.length) : deliverPartActed i c d .accepted index stamp s =
      turnAway i c index stamp (rememberDelivered c d .accepted (offerIfConfirm c d .accepted s)) := by
  simp [deliverPartActed, rcqHasRoom, h]

theorem deliverPartActed_refused (i : Nat) (c : Context) (d : Digest) {v : Verdict} (index : Nat) (stamp : Stamp) (s : State)
    (h : v ≠ .accepted) : deliverPartActed i c d v index stamp s =
      abandon i c (rememberDelivered c d v (offerIfConfirm c d v s)) := if_neg h

theorem deliverProcessorActed_room (i : Nat) (c : Context) (d : Digest) (index : Nat) (stamp : Stamp) {s : State}
    (h : s.asu.rcq.length < 16) : deliverProcessorActed i c d .accepted index stamp s =
      rememberDelivered c d .accepted (offerIfConfirm c d .accepted (placeRecord i c stamp s)) := by
  simp [deliverProcessorActed, rcqHasRoom, h]

theorem deliverProcessorActed_full (i : Nat) (c : Context) (d : Digest) (index : Nat) (stamp : Stamp) {s : State}
    (h : 16 ≤ s.asu.rcq.length) : deliverProcessorActed i c d .accepted index stamp s = turnAway i c index stamp s := by
  simp [deliverProcessorActed, rcqHasRoom, h]

theorem deliverProcessorActed_refused (i : Nat) (c : Context) (d : Digest) {v : Verdict} (index : Nat) (stamp : Stamp) (s : State)
    (h : v ≠ .accepted) : deliverProcessorActed i c d v index stamp s =
      abandon i c (rememberDelivered c d v (offerIfConfirm c d v s)) := if_neg h

theorem completeNew_partActed {i : Nat} {c : Context} {s t : State} {v : Verdict} (d : Digest) (index : Nat) (stamp : Stamp)
    (hacted : partActed c.callType s = true) (hverdict : decideVerdict c.sender c.callType s = (v, t)) :
    completeNew i c d index stamp s = deliverPartActed i c d v index stamp t := by
  rw [completeNew, hverdict, hacted, if_pos rfl]

theorem completeNew_processorActed {i : Nat} {c : Context} {s t : State} {v : Verdict} (d : Digest) (index : Nat) (stamp : Stamp)
    (hacted : partActed c.callType s = false) (hverdict : decideVerdict c.sender c.callType s = (v, t)) :
    completeNew i c d index stamp s = deliverProcessorActed i c d v index stamp t := by
  rw [completeNew, hverdict, hacted, if_neg Bool.false_ne_true]

/-! ### Completion (R60, R62) -/

theorem duplicateVerdict_of_record {c : Context} {d : Digest} {s : State} {p : Peer} {v : Verdict}
    (hpeer : findPeer c.sender s = some p)
    (hrecord : p.lastDelivered = some { callNumber := c.callNumber, digest := d, verdict := v }) :
    duplicateVerdict c d s = some v := by simp [duplicateVerdict, hpeer, hrecord]

/-- A record of another call is no record of this one with any verdict. -/
theorem duplicateVerdict_of_no_record {c : Context} {d : Digest} {s : State}
    (h : ∀ p v, findPeer c.sender s = some p → p.lastDelivered ≠ some { callNumber := c.callNumber, digest := d, verdict := v }) :
    duplicateVerdict c d s = none := by
  unfold duplicateVerdict
  split
  case h_2 => rfl
  case h_1 r hr =>
    obtain ⟨p, hpeer, hrecord⟩ := Option.bind_eq_some_iff.mp hr
    refine if_neg ?_
    rintro ⟨hnumber, hdigest⟩
    exact h p r.verdict hpeer (by rw [hrecord, ← hnumber, ← hdigest])

theorem completeCall_wrongLength {i : Nat} {c : Context} {index : Nat} {stamp : Stamp} {s : State}
    (h : c.buffers.length ≠ fragmentCount c.length) : completeCall i c index stamp s =
      abandon i c (raiseException (exceptionFor .lengthMismatch c.sender c.callNumber index stamp) s) := if_pos h

theorem completeCall_duplicate {i : Nat} {c : Context} {index : Nat} {stamp : Stamp} {s : State} {v : Verdict}
    (hlength : c.buffers.length = fragmentCount c.length) (h : duplicateVerdict c (callDigest c s) s = some v) :
    completeCall i c index stamp s = completeDuplicate i c (callDigest c s) v s := by
  simp only [completeCall, hlength, ne_eq, not_true_eq_false, if_false, h]

theorem completeCall_new {i : Nat} {c : Context} {index : Nat} {stamp : Stamp} {s : State}
    (hlength : c.buffers.length = fragmentCount c.length) (h : duplicateVerdict c (callDigest c s) s = none) :
    completeCall i c index stamp s = completeNew i c (callDigest c s) index stamp s := by
  simp only [completeCall, hlength, ne_eq, not_true_eq_false, if_false, h]

/-- R62: the cause set that a duplicate STOP adds to is the one the call found. -/
theorem completeDuplicate_eq (i : Nat) (c : Context) (d : Digest) (v : Verdict) (s : State) :
    completeDuplicate i c d v s =
      if c.callType = 3 then
        setCauses { s.stu.causes with radioStop := true } (offerIfConfirm c d v (countDuplicate (abandon i c s)))
      else offerIfConfirm c d v (countDuplicate (abandon i c s)) := by
  simp [completeDuplicate, putRadioStop, CallType.ofByte_eq_stop_iff]

/-! ### Fragment 0 (R55, R56) -/

theorem fragmentZero_repeated {b : Burst} {stamp : Stamp} {s : State} {i : Nat} {c : Context}
    (h : contextOf b.sender s = some (i, c)) (hnumber : c.callNumber = b.callNumber) :
    fragmentZero b stamp s = countDuplicate s := by
  simp only [fragmentZero, h, hnumber, if_true]

theorem fragmentZero_supersedes {b : Burst} {stamp : Stamp} {s : State} {i : Nat} {c : Context}
    (h : contextOf b.sender s = some (i, c)) (hnumber : c.callNumber ≠ b.callNumber) :
    fragmentZero b stamp s = startCall b stamp
      (abandon i c (raiseException (exceptionFor .superseded b.sender c.callNumber c.next stamp) s)) := by
  obtain ⟨-, hsender⟩ := contextOf_some h
  simp only [fragmentZero, h, hnumber, if_false, hsender]

theorem fragmentZero_starts {b : Burst} {stamp : Stamp} {s : State} (h : contextOf b.sender s = none) :
    fragmentZero b stamp s = startCall b stamp s := by
  simp only [fragmentZero, h]

theorem startCall_noContext {b : Burst} {stamp : Stamp} {s : State} (h : firstEmpty s.asu.contexts = none) :
    startCall b stamp s = raiseException (exceptionFor .noContext b.sender b.callNumber 0 stamp) s := by
  simp only [startCall, h]

theorem startCall_noBuffer {b : Burst} {stamp : Stamp} {s : State} {i : Nat} (h : firstEmpty s.asu.contexts = some i)
    (hfree : s.bpl.free = []) :
    startCall b stamp s = raiseException (exceptionFor .noBuffer b.sender b.callNumber 0 stamp) s := by
  simp only [startCall, h, hfree]

theorem startCall_takesBuffer {b : Burst} {stamp : Stamp} {s : State} {i : Nat} {buffer : BufferNumber}
    {free : List BufferNumber} (h : firstEmpty s.asu.contexts = some i) (hfree : s.bpl.free = buffer :: free) :
    startCall b stamp s =
      if CallType.ofByte (octetAt b.body 0) = none then
        returnBuffers [buffer]
          (raiseException (exceptionFor .badType b.sender b.callNumber 0 stamp) (takeBuffer buffer b.body s))
      else if b.last then completeCall i (contextFrom b buffer stamp) 0 stamp (takeBuffer buffer b.body s)
      else setContext i (contextFrom b buffer stamp) (takeBuffer buffer b.body s) := by
  simp only [startCall, h, hfree]
  rfl

/-! ### Later fragments (R57, R58) -/

theorem laterFragment_orphan {b : Burst} {stamp : Stamp} {s : State} (index : Nat)
    (h : contextFor b.sender b.callNumber s = none) : laterFragment b index stamp s = countOrphan s := by
  simp only [laterFragment, h]

theorem laterFragment_repeated {b : Burst} {index : Nat} {stamp : Stamp} {s : State} {i : Nat} {c : Context}
    (h : contextFor b.sender b.callNumber s = some (i, c)) (hindex : index < c.next) :
    laterFragment b index stamp s = countDuplicate s := by
  simp only [laterFragment, h, hindex, if_true]

theorem laterFragment_outOfOrder {b : Burst} {index : Nat} {stamp : Stamp} {s : State} {i : Nat} {c : Context}
    (h : contextFor b.sender b.callNumber s = some (i, c)) (hindex : c.next < index) :
    laterFragment b index stamp s =
      abandon i c (raiseException (exceptionFor .outOfOrder b.sender b.callNumber index stamp) s) := by
  obtain ⟨-, hsender, hnumber⟩ := contextFor_some h
  simp only [laterFragment, h, Nat.lt_asymm hindex, hindex, if_true, if_false, hsender, hnumber]

theorem laterFragment_inOrder {b : Burst} {stamp : Stamp} {s : State} {i : Nat} {c : Context}
    (h : contextFor b.sender b.callNumber s = some (i, c)) :
    laterFragment b c.next stamp s = takeInOrder i c b c.next stamp s := by
  simp only [laterFragment, h, Nat.lt_irrefl, if_false]

theorem takeInOrder_eighth (i : Nat) (c : Context) {b : Burst} (stamp : Stamp) (s : State) (h : b.last = false) :
    takeInOrder i c b 7 stamp s =
      abandon i c (raiseException (exceptionFor .lengthMismatch c.sender c.callNumber 7 stamp) s) := if_pos ⟨rfl, h⟩

theorem takeInOrder_noBuffer (i : Nat) (c : Context) {b : Burst} {index : Nat} (stamp : Stamp) {s : State}
    (h : index ≠ 7 ∨ b.last = true) (hfree : s.bpl.free = []) :
    takeInOrder i c b index stamp s =
      abandon i c (raiseException (exceptionFor .noBuffer c.sender c.callNumber index stamp) s) := by
  have hfits : ¬ (index = 7 ∧ b.last = false) := by rwa [not_and_or, Bool.not_eq_false]
  simp only [takeInOrder, hfits, if_false, hfree]

theorem takeInOrder_takesBuffer (i : Nat) (c : Context) {b : Burst} {index : Nat} (stamp : Stamp) {s : State}
    {buffer : BufferNumber} {free : List BufferNumber} (h : index ≠ 7 ∨ b.last = true) (hfree : s.bpl.free = buffer :: free)
    {longer : Context}
    (hlonger : longer = { c with buffers := c.buffers ++ [buffer], age := 0, crowdedSeen := c.crowdedSeen || b.crowded }) :
    takeInOrder i c b index stamp s =
      if b.last then completeCall i longer index stamp (takeBuffer buffer b.body s)
      else setContext i { longer with next := c.next + 1 } (takeBuffer buffer b.body s) := by
  have hfits : ¬ (index = 7 ∧ b.last = false) := by rwa [not_and_or, Bool.not_eq_false]
  subst hlonger
  simp only [takeInOrder, hfits, if_false, hfree]

/-! ### Overheard fragments (R59, R124, R125) -/

theorem callArrived_overheard {b : Burst} (stamp : Stamp) {s : State} (hstation : b.target ≠ s.config.station)
    (hteam : b.target ≠ wholeTeam) : callArrived b stamp s =
      if b.index = 0 ∧ b.last = true then overheardCall b.sender b.target (octetAt b.body 0) stamp s else s :=
  if_neg (not_or.mpr ⟨hstation, hteam⟩)

theorem overheardCall_portable (sender target : Station) (callType : Byte) (stamp : Stamp) {s : State}
    (h : isLocomotive s = false) : overheardCall sender target callType stamp s = s := by simp [overheardCall, h]

theorem overheardCall_offer (sender target : Station) (stamp : Stamp) {s : State} (h : isLocomotive s = true) :
    overheardCall sender target 5 stamp s = overheardOffer sender target stamp s := if_pos h

theorem overheardCall_stop (sender target : Station) (stamp : Stamp) {s : State} (h : isLocomotive s = true) :
    overheardCall sender target 3 stamp s = if s.config.ganged then putRadioStop s else s := if_pos h

theorem overheardCall_other (sender target : Station) {callType : Byte} (stamp : Stamp) (s : State)
    (hoffer : callType ≠ 5) (hstop : callType ≠ 3) : overheardCall sender target callType stamp s = s := by
  obtain ⟨-, -, hthree, -, hfive, -⟩ := CallType.ofByte_eq_some_iff callType
  unfold overheardCall
  split
  · split <;> simp_all
  · rfl

theorem overheardOffer_fromHolder {sender : Station} (target : Station) (stamp : Stamp) {s : State}
    (h : s.tmu.control.holder = some sender) :
    overheardOffer sender target stamp s = { s with tmu.control := .offerPending sender target stamp } := if_pos (decide_eq_true h)

theorem overheardOffer_fromOther {sender : Station} (target : Station) (stamp : Stamp) {s : State}
    (h : s.tmu.control.holder ≠ some sender) : overheardOffer sender target stamp s = s := by
  simp [overheardOffer, isHolder, h]

/-! ### The statements -/

/-- Settles O13: the type makes the call part-acted, so its delivery is `deliverPartActed` in the state after the verdict's effects,
split by the verdict and the room; the second half is a case each of the queue operations. -/
theorem partActedCallsAreActedOnWhateverTheRoom : Obligations.PartActedCallsAreActedOnWhateverTheRoom := by
  constructor
  · rintro i c d index stamp s t v hloc htype hverdict offered rfl stored rfl
    have hloct : isLocomotive t = true := by
      have hcfl : (decideVerdict c.sender c.callType s).2.cfl = s.cfl := by simp
      rw [hverdict] at hcfl
      rw [isLocomotive_of_cfl hcfl, hloc]
    rw [completeNew_partActed d index stamp (partActed_of_type hloc htype) hverdict]
    have hstored := rememberDelivered_offerIfConfirm c d v t
    split
    case isTrue haccepted =>
      subst haccepted
      split
      case isTrue hroom =>
        rw [deliverPartActed_room i c d index stamp hroom,
          placeRecord_of_agree i c stamp (s := t) (by simp) (by simp) (by simp), recordOf_locomotive c stamp hloct, hstored]
        rfl
      case isFalse hfull =>
        rw [deliverPartActed_full i c d index stamp (Nat.not_lt.mp hfull), hstored]
        rfl
    case isFalse hrefused =>
      rw [deliverPartActed_refused i c d index stamp t hrefused, hstored]
      rfl
  · intro s
    exact ⟨fun e => ⟨offerReadback_held, offerReadback_full e, offerReadback_new⟩,
      fun e => ⟨raiseException_room e, raiseException_full e⟩, fun i c => rfl⟩

/-- Settles O12: the length first, then the entry's record, which names this call or does not. -/
theorem completionTestsLengthThenDuplicate : Obligations.CompletionTestsLengthThenDuplicate := by
  rintro i c index stamp s d rfl
  refine ⟨completeCall_wrongLength, fun hlength => ⟨?duplicate, ?new⟩⟩
  case duplicate =>
    rintro p v hpeer hrecord counted rfl offered rfl
    rw [completeCall_duplicate hlength (duplicateVerdict_of_record hpeer hrecord), completeDuplicate_eq]
    rfl
  case new =>
    intro hno
    exact completeCall_new hlength (duplicateVerdict_of_no_record hno)

/-- Settles O10: by the sender's context, and for a call that starts by the context and the buffer it finds. -/
theorem fragmentZeroStartsRepeatsOrSupersedes : Obligations.FragmentZeroStartsRepeatsOrSupersedes := by
  intro b stamp s
  refine ⟨fun i c h => ?context, fragmentZero_starts, startCall_noContext, fun i => startCall_noBuffer, ?starts⟩
  case context =>
    split
    case isTrue hnumber => exact fragmentZero_repeated h hnumber
    case isFalse hnumber => exact fragmentZero_supersedes h hnumber
  case starts =>
    rintro i buffer free hempty hfree taken rfl c rfl
    rw [startCall_takesBuffer hempty hfree, takeBuffer_of_free b.body hfree]
    rfl

/-- Settles O11: by the context, then by how the index stands to the one it waits for. -/
theorem laterFragmentsAreSortedByIndex : Obligations.LaterFragmentsAreSortedByIndex := by
  intro b k stamp s
  refine ⟨laterFragment_orphan k, fun i c h => ?_⟩
  obtain ⟨-, hsender, hnumber⟩ := contextFor_some h
  refine ⟨laterFragment_repeated h, laterFragment_outOfOrder h, ?eighth, ?noBuffer, ?taken⟩
  case eighth =>
    rintro rfl hseven hlast
    rw [laterFragment_inOrder h, hseven, takeInOrder_eighth i c stamp s hlast, hsender, hnumber]
    rfl
  case noBuffer =>
    rintro rfl hfits hfree
    rw [laterFragment_inOrder h, takeInOrder_noBuffer i c stamp hfits hfree, hsender, hnumber]
    rfl
  case taken =>
    rintro rfl hfits buffer free hfree taken rfl longer hlonger
    rw [laterFragment_inOrder h, takeInOrder_takesBuffer i c stamp hfits hfree hlonger, takeBuffer_of_free b.body hfree]
    rfl

/-- Settles O14: no processor-acted call has effects, so `deliverProcessorActed` decides by the verdict and the room. -/
theorem processorActedCallsNeedRoom : Obligations.ProcessorActedCallsNeedRoom := by
  constructor
  · rintro i c d index stamp s hloc htype answered rfl
    have hacted : partActed c.callType s = false :=
      not_partActed_of_type s (by rcases htype with h | h <;> rw [h] <;> decide)
    have hnew := completeNew_processorActed d index stamp (i := i) hacted (decideVerdict_movement c.sender hloc htype)
    refine ⟨fun hholder => ?notHolder, fun hholder hcauses => ?stopped, fun hholder hcauses => ?accepted⟩
    case notHolder =>
      rw [hnew, moveVerdict_notHolder hholder, deliverProcessorActed_refused i c d index stamp s (by decide)]
      rfl
    case stopped =>
      rw [hnew, moveVerdict_stopped hholder hcauses, deliverProcessorActed_refused i c d index stamp s (by decide)]
      rfl
    case accepted =>
      rw [hnew, moveVerdict_accepted hholder hcauses]
      split
      case isTrue hroom =>
        have hrecord := recordOf_locomotive c stamp hloc
        rw [decide_eq_true hholder] at hrecord
        rw [deliverProcessorActed_room i c d index stamp hroom, placeRecord, hrecord]
        rfl
      case isFalse hfull =>
        rw [deliverProcessorActed_full i c d index stamp (Nat.not_lt.mp hfull)]
        rfl
  · intro i c d index stamp s hplain
    have hnew : completeNew i c d index stamp s = deliverProcessorActed i c d .accepted index stamp s := by
      rcases hplain with hportable | htype
      · exact completeNew_processorActed d index stamp (partActed_portable c.callType hportable)
          (decideVerdict_portable c.sender c.callType hportable)
      · have ⟨_, _, hacted⟩ := htype
        exact completeNew_processorActed d index stamp (not_partActed_of_type s hacted) (decideVerdict_other c.sender s htype)
    constructor
    · rintro hroom placed offered rfl rfl
      rw [hnew, deliverProcessorActed_room i c d index stamp hroom, rememberDelivered_offerIfConfirm]
      rfl
    · intro hfull
      rw [hnew, deliverProcessorActed_full i c d index stamp hfull]
      rfl

/-- Settles O16: past the index and the last flag, by the role and the call type. -/
theorem overheardCallsActOnLocomotives : Obligations.OverheardCallsActOnLocomotives := by
  intro b stamp s hstation hteam
  have harrived := callArrived_overheard stamp hstation hteam
  refine ⟨fun hpart => by rw [harrived, if_neg hpart], fun hindex hlast => ?_⟩
  rw [if_pos ⟨hindex, hlast⟩] at harrived
  rw [harrived]
  have hportable (h : isLocomotive s = false) := overheardCall_portable b.sender b.target (octetAt b.body 0) stamp h
  refine ⟨fun hloc htype hholder => ?offer, fun htype hholder => ?strangerOffer, fun hloc htype => ?stop,
    overheardCall_other b.sender b.target stamp s, hportable⟩
  case offer => rw [htype, overheardCall_offer _ _ stamp hloc, overheardOffer_fromHolder b.target stamp hholder]
  case strangerOffer =>
    by_cases hloc : isLocomotive s = true
    · rw [htype, overheardCall_offer _ _ stamp hloc, overheardOffer_fromOther b.target stamp hholder]
    · exact hportable (by simpa using hloc)
  case stop => rw [htype, overheardCall_stop _ _ stamp hloc, putRadioStop_of_locomotive hloc]

end Sys2Proof.Machine
end

section
/-! PROOF. The buffer pool (05 section 5.1): how many places hold a buffer, that no operation of the part changes that number but a
start or restart of the part, and the statement that each buffer is in one place after every step. -/

namespace Sys2Proof.Machine

/-! ### Lists of slots -/

/-- The buffers that a slot holds through its content, none where it is empty. -/
def holding {α : Type} (buffers : α → List BufferNumber) (slot : Option α) : List BufferNumber := (slot.map buffers).getD []

@[simp] theorem holding_none {α : Type} (buffers : α → List BufferNumber) : holding buffers none = [] := rfl
@[simp] theorem holding_some {α : Type} (buffers : α → List BufferNumber) (a : α) : holding buffers (some a) = buffers a := rfl

theorem contextBuffers_eq_flatMap (contexts : List (Option Context)) :
    contextBuffers contexts = contexts.flatMap (holding Context.buffers) := rfl

theorem orderBuffers_eq_flatMap (ool : List (Option Order)) : orderBuffers ool = ool.flatMap (holding Order.buffers) := by
  unfold orderBuffers inUse
  induction ool with
  | nil => rfl
  | cons x rest ih => cases x <;> simp_all [holding]

/-- Where a slot is written, what it held is exchanged for what it holds now. -/
theorem count_holding_set {α : Type} (b : BufferNumber) (buffers : α → List BufferNumber) {slots : List (Option α)} {i : Nat}
    (hi : i < slots.length) (x : Option α) :
    ((slots.set i x).flatMap (holding buffers)).count b + (holding buffers (slotAt slots i)).count b =
      (slots.flatMap (holding buffers)).count b + (holding buffers x).count b := by
  induction slots generalizing i with
  | nil => simp at hi
  | cons y rest ih =>
    cases i with
    | zero =>
      simp only [List.set_cons_zero, List.flatMap_cons, List.count_append, slotAt, List.getD_cons_zero]
      omega
    | succ i =>
      have hrest := ih (Nat.lt_of_succ_lt_succ hi)
      simp only [List.set_cons_succ, List.flatMap_cons, List.count_append, slotAt, List.getD_cons_succ] at hrest ⊢
      omega

/-- What is written holds nothing: the slot gives up what it held, also where there is no such slot. -/
theorem count_holding_set_empty {α : Type} (b : BufferNumber) {buffers : α → List BufferNumber} (slots : List (Option α)) (i : Nat)
    {x : Option α} (hx : holding buffers x = []) :
    ((slots.set i x).flatMap (holding buffers)).count b + (holding buffers (slotAt slots i)).count b =
      (slots.flatMap (holding buffers)).count b := by
  by_cases hi : i < slots.length
  · simpa [hx] using count_holding_set b buffers hi x
  · rw [List.set_eq_of_length_le (Nat.not_lt.mp hi)]
    simp [slotAt, List.getD, List.getElem?_eq_none (Nat.not_lt.mp hi)]

/-! ### The number of places of a buffer (R77) -/

/-- How often a buffer stands in the Free Buffer List, the contexts, the RCQ records, the held calls and the orders. -/
def placeCount (b : BufferNumber) (s : State) : Nat := (bufferPlaces s).count b

theorem placeCount_eq (b : BufferNumber) (s : State) :
    placeCount b s = s.bpl.free.count b + (contextBuffers s.asu.contexts).count b +
      (s.asu.rcq.flatMap CallRecord.buffers).count b + (s.bpl.held.flatMap HeldCall.buffers).count b +
      (orderBuffers s.odu.ool).count b := by simp only [placeCount, bufferPlaces, List.count_append]

theorem buffersBalanced_iff {s : State} : BuffersBalanced s ↔ ∀ b, placeCount b s = 1 := by
  have hall (b : BufferNumber) : (List.finRange 128).count b = 1 :=
    List.count_eq_one_of_mem (List.nodup_finRange 128) (List.mem_finRange b)
  simp only [BuffersBalanced, List.perm_iff_count, hall, placeCount]

theorem BuffersBalanced.of_placeCount {s t : State} (h : BuffersBalanced s) (heq : ∀ b, placeCount b t = placeCount b s) :
    BuffersBalanced t := buffersBalanced_iff.mpr fun b => (heq b).trans (buffersBalanced_iff.mp h b)

/-- Only the pool, the contexts, the RCQ and what the orders hold are looked at. -/
theorem placeCount_of_agree {s t : State} (b : BufferNumber) (h : t.bpl = s.bpl ∧ t.asu.contexts = s.asu.contexts ∧
    t.asu.rcq = s.asu.rcq ∧ orderBuffers t.odu.ool = orderBuffers s.odu.ool) : placeCount b t = placeCount b s := by
  obtain ⟨hpool, hcontexts, hrcq, horders⟩ := h
  rw [placeCount_eq, placeCount_eq, hpool, hcontexts, hrcq, horders]

/-! ### The pool and the contexts -/

@[simp] theorem placeCount_returnBuffers (b : BufferNumber) (buffers : List BufferNumber) (s : State) :
    placeCount b (returnBuffers buffers s) = placeCount b s + buffers.count b := by
  simp only [placeCount_eq, returnBuffers_free, returnBuffers_bpl_held, returnBuffers_asu, returnBuffers_odu, List.count_append]
  omega

/-- R78: the buffer taken is in no place until it is given one. -/
theorem placeCount_takeBuffer (b : BufferNumber) {buffer : BufferNumber} {rest : List BufferNumber} (body : List Byte) {s : State}
    (h : s.bpl.free = buffer :: rest) : placeCount b (takeBuffer buffer body s) + [buffer].count b = placeCount b s := by
  rw [takeBuffer_of_free body h]
  simp only [placeCount_eq, h, List.count_cons, List.count_nil]
  omega

/-- The buffers that context i holds. -/
def contextHolding (i : Nat) (s : State) : List BufferNumber := holding Context.buffers (slotAt s.asu.contexts i)

theorem contextHolding_some {i : Nat} {s : State} {c : Context} (h : slotAt s.asu.contexts i = some c) :
    contextHolding i s = c.buffers := by simp [contextHolding, h]

theorem contextHolding_none {i : Nat} {s : State} (h : slotAt s.asu.contexts i = none) : contextHolding i s = [] := by
  simp [contextHolding, h]

theorem contextHolding_of_contexts {s t : State} (i : Nat) (h : t.asu.contexts = s.asu.contexts) :
    contextHolding i t = contextHolding i s := by rw [contextHolding, contextHolding, h]

theorem placeCount_vacate (b : BufferNumber) (i : Nat) (s : State) :
    placeCount b (vacate i s) + (contextHolding i s).count b = placeCount b s := by
  have hset := count_holding_set_empty b s.asu.contexts i (holding_none Context.buffers)
  simp only [placeCount_eq, contextHolding, contextBuffers_eq_flatMap, vacate_contexts, vacate_bpl, vacate_asu_rcq, vacate_odu]
  omega

/-- R72, for a context as it stands or with buffers that it has taken since. -/
theorem placeCount_abandon (b : BufferNumber) (i : Nat) (c : Context) (s : State) :
    placeCount b (abandon i c s) + (contextHolding i s).count b = placeCount b s + c.buffers.count b := by
  have hvacate := placeCount_vacate b i (returnBuffers c.buffers s)
  rw [contextHolding_of_contexts (s := s) i (by simp), placeCount_returnBuffers] at hvacate
  exact hvacate

theorem placeCount_setContext (b : BufferNumber) {i : Nat} (c : Context) {s : State} (hi : i < s.asu.contexts.length) :
    placeCount b (setContext i c s) + (contextHolding i s).count b = placeCount b s + c.buffers.count b := by
  have hset := count_holding_set b Context.buffers hi (some c)
  simp only [placeCount_eq, contextHolding, contextBuffers_eq_flatMap, setContext, holding_some] at hset ⊢
  omega

/-- R73. -/
@[simp] theorem placeCount_clearContexts (b : BufferNumber) (s : State) : placeCount b (clearContexts s) = placeCount b s := by
  have hvacant : contextBuffers (s.asu.contexts.map fun _ => none) = [] := by simp [contextBuffers]
  simp only [placeCount_eq, clearContexts_free, clearContexts_contexts, clearContexts_asu_rcq, clearContexts_bpl_held,
    clearContexts_odu, hvacant, List.count_append, List.count_nil]
  omega

@[simp] theorem placeCount_raiseException (b : BufferNumber) (e : ExceptionEntry) (s : State) :
    placeCount b (raiseException e s) = placeCount b s := placeCount_of_agree b (by simp)

/-- Before most abandonments an exception is raised, which holds no buffers (R69). -/
theorem placeCount_abandon_raiseException (b : BufferNumber) (i : Nat) (c : Context) (e : ExceptionEntry) (s : State) :
    placeCount b (abandon i c (raiseException e s)) + (contextHolding i s).count b = placeCount b s + c.buffers.count b := by
  have habandon := placeCount_abandon b i c (raiseException e s)
  rw [contextHolding_of_contexts (s := s) i (by simp), placeCount_raiseException] at habandon
  exact habandon

/-- A context that is abandoned as it stands gives all its buffers back. -/
theorem placeCount_abandon_standing (b : BufferNumber) {i : Nat} {c : Context} (e : ExceptionEntry) {s : State}
    (h : slotAt s.asu.contexts i = some c) : placeCount b (abandon i c (raiseException e s)) = placeCount b s := by
  have habandon := placeCount_abandon_raiseException b i c e s
  rw [contextHolding_some h] at habandon
  exact Nat.add_right_cancel habandon

/-! ### The order slots -/

/-- The buffers that the order in a slot holds. -/
def slotHolding (slot : Nat) (s : State) : List BufferNumber := holding Order.buffers (orderAt slot s)

theorem slotHolding_some {slot : Nat} {s : State} {o : Order} (h : orderAt slot s = some o) : slotHolding slot s = o.buffers := by
  simp [slotHolding, h]

theorem slotHolding_of_odu {s t : State} (slot : Nat) (h : t.odu = s.odu) : slotHolding slot t = slotHolding slot s := by
  rw [slotHolding, slotHolding, orderAt, orderAt, h]

theorem placeCount_setSlot (b : BufferNumber) {slot : Nat} {s : State} (h : slot < s.odu.ool.length) (x : Option Order) :
    placeCount b (setSlot slot x s) + (slotHolding slot s).count b = placeCount b s + (holding Order.buffers x).count b := by
  have hset := count_holding_set b Order.buffers h x
  simp only [placeCount_eq, slotHolding, orderAt, orderBuffers_eq_flatMap, setSlot_ool, setSlot_bpl, setSlot_asu]
  omega

theorem placeCount_setSlot_empty (b : BufferNumber) (slot : Nat) (s : State) {x : Option Order} (hx : holding Order.buffers x = []) :
    placeCount b (setSlot slot x s) + (slotHolding slot s).count b = placeCount b s := by
  have hset := count_holding_set_empty b s.odu.ool slot hx
  simp only [placeCount_eq, slotHolding, orderAt, orderBuffers_eq_flatMap, setSlot_ool, setSlot_bpl, setSlot_asu]
  omega

/-- An order that changes in its slot keeps its buffers. -/
theorem placeCount_setSlot_same (b : BufferNumber) {slot : Nat} {s : State} {o p : Order} (h : orderAt slot s = some o)
    (hp : p.buffers = o.buffers) : placeCount b (setSlot slot (some p) s) = placeCount b s := by
  have hset := placeCount_setSlot b (slotAt_lt h) (some p)
  rw [slotHolding_some h, holding_some, hp] at hset
  omega

@[simp] theorem placeCount_setPlace (b : BufferNumber) (slot : Nat) (place : FragmentPlace) (s : State) :
    placeCount b (setPlace slot place s) = placeCount b s := by
  cases h : orderAt slot s with
  | none => simp [setPlace, h]
  | some o => 
    rw [setPlace_of_orderAt place h]
    exact placeCount_setSlot_same b h rfl

@[simp] theorem slotHolding_setPlace (i slot : Nat) (place : FragmentPlace) (s : State) :
    slotHolding i (setPlace slot place s) = slotHolding i s := by
  cases h : orderAt slot s with
  | none => simp [setPlace, h]
  | some o =>
    rw [setPlace_of_orderAt place h]
    by_cases hi : slot = i
    · subst hi
      rw [slotHolding_some h, slotHolding, orderAt_setSlot_same (slotAt_lt h), holding_some]
    · rw [slotHolding, orderAt_setSlot_other hi, slotHolding]

/-! ### The transmitter -/

@[simp] theorem placeCount_noteStaged (b : BufferNumber) (source : Source) (s : State) :
    placeCount b (noteStaged source s) = placeCount b s := by
  cases source with
  | fragment slot index => exact (placeCount_setPlace b slot .staged (chargeCredit s)).trans (placeCount_of_agree b (by simp))
  | allstop team => rfl
  | readback => rfl
  | presence flag => rfl

@[simp] theorem placeCount_stage (b : BufferNumber) (source : Source) (s : State) :
    placeCount b (stage source s) = placeCount b s := by
  unfold stage
  exact (placeCount_noteStaged b source _).trans rfl

@[simp] theorem placeCount_arbitrate (b : BufferNumber) (s : State) : placeCount b (arbitrate s) = placeCount b s := by
  rcases arbitrate_cases s with heq | ⟨source, -, -, -, heq⟩
  · rw [heq]
  · rw [heq, placeCount_stage]
    exact placeCount_of_agree b (by simp)

@[simp] theorem placeCount_leaveSource (b : BufferNumber) (source : Source) (s : State) :
    placeCount b (leaveSource source s) = placeCount b s := by
  cases source with
  | fragment slot index => exact placeCount_setPlace b slot .onAir s
  | allstop team => rfl
  | readback => rfl
  | presence flag => rfl

@[simp] theorem placeCount_goOnAir (b : BufferNumber) (s : State) : placeCount b (goOnAir s) = placeCount b s := by
  unfold goOnAir
  split
  · rfl
  · exact placeCount_leaveSource b _ _

@[simp] theorem placeCount_giveBack (b : BufferNumber) (source : Source) (s : State) :
    placeCount b (giveBack source s) = placeCount b s := by
  cases source with
  | fragment slot index => exact placeCount_setPlace b slot .none (refundCredit s)
  | allstop team => rfl
  | readback => rfl
  | presence flag => rfl

theorem slotHolding_giveBack (i : Nat) (source : Source) (s : State) : slotHolding i (giveBack source s) = slotHolding i s := by
  cases source with
  | fragment slot index => exact slotHolding_setPlace i slot .none (refundCredit s)
  | allstop team => rfl
  | readback => rfl
  | presence flag => rfl

@[simp] theorem placeCount_withdraw (b : BufferNumber) (meant : Source → Bool) (s : State) :
    placeCount b (withdraw meant s) = placeCount b s := by
  rcases withdraw_cases meant s with heq | ⟨st, -, -, heq⟩
  · rw [heq]
  · rw [heq, placeCount_giveBack]
    exact placeCount_of_agree b (by simp)

theorem slotHolding_withdraw (i : Nat) (meant : Source → Bool) (s : State) :
    slotHolding i (withdraw meant s) = slotHolding i s := by
  rcases withdraw_cases meant s with heq | ⟨st, -, -, heq⟩
  · rw [heq]
  · rw [heq, slotHolding_giveBack, slotHolding_of_odu i (t := emptyStaging s) (s := s) (by simp)]

@[simp] theorem placeCount_displace (b : BufferNumber) (old : Staged) (team : Team) (s : State) :
    placeCount b (displace old team s) = placeCount b s := by
  have hstaged : placeCount b (stage (.allstop team) (giveBack old.source s)) = placeCount b s := by simp
  unfold displace
  dsimp only
  split
  · split
    · rw [placeCount_goOnAir, hstaged]
    · exact hstaged
  · exact hstaged

@[simp] theorem placeCount_requestAllstop (b : BufferNumber) (team : Team) (s : State) :
    placeCount b (requestAllstop team s) = placeCount b s := by
  unfold requestAllstop
  split
  · rfl
  · split
    · rfl
    · split
      · split <;> rfl
      · exact placeCount_displace b _ team s

@[simp] theorem placeCount_startSeries (b : BufferNumber) (team : Team) (s : State) :
    placeCount b (startSeries team s) = placeCount b s := placeCount_requestAllstop b _ _

@[simp] theorem placeCount_allstopCompleted (b : BufferNumber) (s : State) :
    placeCount b (allstopCompleted s) = placeCount b s := by
  unfold allstopCompleted
  split
  · rfl
  · split
    · rfl
    · exact placeCount_requestAllstop b _ _

/-! ### Orders -/

@[simp] theorem placeCount_promote (b : BufferNumber) (s : State) : placeCount b (promote s) = placeCount b s := by
  rcases promote_cases s with heq | ⟨slot, o, -, holdest, heq⟩
  · rw [heq]
  · obtain ⟨-, hslot, -⟩ := oldestQueuedFrom_some holdest
    rw [heq]
    exact placeCount_setSlot_same b (o := o) hslot rfl

/-- R101 step 4: the order that finishes holds no buffers, and its slot holds none from here on. -/
theorem placeCount_offerResult (b : BufferNumber) (slot : Nat) {o : Order} (s : State) (ho : o.buffers = []) :
    placeCount b (offerResult slot o s) + (slotHolding slot s).count b = placeCount b s := by
  rcases offerResult_cases slot o s with ⟨-, heq⟩ | ⟨-, heq⟩
  · rw [heq]
    exact placeCount_setSlot_empty b slot { s with odu.rsq := s.odu.rsq ++ [resultOf slot o] } rfl
  · rw [heq]
    exact placeCount_setSlot_empty b slot { s with odu.finishedSlots := s.odu.finishedSlots ++ [slot] } ho

/-- R101: what the order held has gone back to the Free Buffer List. -/
@[simp] theorem placeCount_finishOrder (b : BufferNumber) (slot : Nat) (outcome : OrderOutcome) (s : State) :
    placeCount b (finishOrder slot outcome s) = placeCount b s := by
  cases ho : orderAt slot s with
  | none => simp [finishOrder, ho]
  | some o =>
    obtain ⟨w, hw, heq⟩ := finishOrder_of_order ho outcome
    have hplaces : placeCount b w = placeCount b s := by rcases hw with rfl | ⟨rfl, -⟩ <;> simp
    have hholding : slotHolding slot (returnBuffers o.buffers w) = o.buffers := by
      rw [← slotHolding_some ho]
      rcases hw with rfl | ⟨rfl, -⟩
      · rfl
      · exact slotHolding_withdraw slot _ s
    have hoffer := placeCount_offerResult b slot (o := finished o outcome s.time) (returnBuffers o.buffers w) rfl
    rw [hholding, placeCount_returnBuffers] at hoffer
    rw [heq, placeCount_promote]
    omega

theorem placeCount_endAttempt (b : BufferNumber) {slot : Nat} {o p : Order} {s : State} (h : orderAt slot s = some o)
    (hp : p.buffers = o.buffers) : placeCount b (endAttempt slot p s) = placeCount b s := by
  unfold endAttempt
  split
  · exact placeCount_finishOrder b slot _ s
  · split
    · exact placeCount_finishOrder b slot _ s
    · split
      · exact placeCount_finishOrder b slot _ s
      · rw [placeCount_promote]
        exact placeCount_setSlot_same b h hp

/-- R92: the order stands nowhere again; then it finishes, goes on to its next fragment, or ends its attempt. -/
@[simp] theorem placeCount_fragmentCompleted (b : BufferNumber) (slot index : Nat) (s : State) :
    placeCount b (fragmentCompleted slot index s) = placeCount b s := by
  unfold fragmentCompleted
  split
  · rfl
  · rename_i o ho
    split
    · have hplaced := placeCount_setSlot_same b ho (p := { o with place := .none }) rfl
      have hslot := orderAt_setSlot_same (slotAt_lt ho) (some { o with place := .none })
      dsimp only
      split
      · exact (placeCount_finishOrder b slot _ _).trans hplaced
      · split
        · refine (placeCount_setSlot_same b hslot ?_).trans hplaced
          rfl
        · exact (placeCount_endAttempt b hslot rfl).trans hplaced
    · rfl

@[simp] theorem placeCount_waitExpired (b : BufferNumber) (slot : Nat) (s : State) :
    placeCount b (waitExpired slot s) = placeCount b s := by
  unfold waitExpired
  split
  · rfl
  · rename_i o ho
    split
    · have hslot : orderAt slot (paceDecrease s) = some o := ho
      have hpace : placeCount b (paceDecrease s) = placeCount b s := placeCount_of_agree b (by simp)
      rw [placeCount_promote, ← hpace]
      exact placeCount_setSlot_same b hslot rfl
    · exact placeCount_finishOrder b slot _ s

theorem placeCount_memberAnswered (b : BufferNumber) {slot : Nat} {o : Order} (station : Station) (v : Verdict) {s : State}
    (h : orderAt slot s = some o) : placeCount b (memberAnswered slot o station v s) = placeCount b s := by
  have hpace : placeCount b (paceIncrease s) = placeCount b s := placeCount_of_agree b (by simp)
  have hmarked : placeCount b (setSlot slot (some { o with members := markAnswered station v o.members })
      (if v = .accepted then paceIncrease s else s)) = placeCount b s := by
    split
    · have hslot : orderAt slot (paceIncrease s) = some o := h
      rw [← hpace]
      exact placeCount_setSlot_same b hslot rfl
    · exact placeCount_setSlot_same b h rfl
  unfold memberAnswered
  dsimp only
  split
  · rw [placeCount_finishOrder, hmarked]
  · exact hmarked

@[simp] theorem placeCount_readbackArrived (b : BufferNumber) (burst : Burst) (s : State) :
    placeCount b (readbackArrived burst s) = placeCount b s := by
  unfold readbackArrived
  split
  · rename_i slot o v hfound _
    obtain ⟨hslot, -⟩ := findSlot_some hfound
    split
    · exact placeCount_memberAnswered b _ _ hslot
    · exact placeCount_of_agree b (by simp)
  · exact placeCount_of_agree b (by simp)

theorem placeCount_cancelOrder (b : BufferNumber) {slot : Nat} {o : Order} {s : State} (h : orderAt slot s = some o) :
    placeCount b (cancelOrder slot o s) = placeCount b s := by
  unfold cancelOrder
  split
  · exact placeCount_setSlot_same b h rfl
  · exact placeCount_finishOrder b slot _ s

/-- R89: the buffers pass from the head of the Free Buffer List to the order, which takes an empty slot. -/
theorem placeCount_acceptOrder (b : BufferNumber) {slot : Nat} (sub : Submission) {s : State}
    (h : firstEmpty s.odu.ool = some slot) : placeCount b (acceptOrder slot sub s) = placeCount b s := by
  obtain ⟨hslot, hempty, -⟩ := firstEmpty_some h
  have hset := count_holding_set b Order.buffers hslot (some (newOrder sub s))
  have hfree := congrArg (List.count b) (List.take_append_drop (fragmentCount sub.length) s.bpl.free)
  rw [hempty, holding_none, List.count_nil, holding_some, newOrder] at hset
  rw [List.count_append] at hfree
  unfold acceptOrder
  rw [placeCount_promote]
  simp only [placeCount_eq, orderBuffers_eq_flatMap, setSlot_ool, setSlot_bpl, setSlot_asu, newOrder] at hset ⊢
  omega

@[simp] theorem placeCount_offerReadback (b : BufferNumber) (e : ReadbackEntry) (s : State) :
    placeCount b (offerReadback e s) = placeCount b s := by
  rcases offerReadback_cases e s with heq | ⟨-, -, heq⟩
  · rw [heq]
  · rw [heq]
    rfl

@[simp] theorem placeCount_emptyReadbacks (b : BufferNumber) (s : State) :
    placeCount b (emptyReadbacks s) = placeCount b s := placeCount_withdraw b _ _

/-- A FINISHED order that waits for room in the RSQ holds no buffers (R85, R79). -/
theorem FinishedHeld.buffers_eq_nil {s : State} (h : FinishedHeld s) {slot : Nat} {o : Order} (hwaits : slot ∈ s.odu.finishedSlots)
    (ho : orderAt slot s = some o) : o.buffers = [] := by
  obtain ⟨-, hfinished, hnone, -⟩ := h
  obtain ⟨p, hp, hstate⟩ := (hfinished slot).mp hwaits
  have hsame : p = o := Option.some.inj (hp.symm.trans ho)
  exact hnone slot o ho (hsame ▸ hstate)

/-- R103: a slot that empties as its result moves into the RSQ held no buffers. -/
theorem placeCount_moveHeldResult (b : BufferNumber) {s : State}
    (h : ∀ slot o, slot ∈ s.odu.finishedSlots → orderAt slot s = some o → o.buffers = []) :
    placeCount b (moveHeldResult s) = placeCount b s := by
  rcases moveHeldResult_cases s with ⟨-, heq⟩ | ⟨slot, rest, hslots, ⟨-, heq⟩ | ⟨o, ho, heq⟩⟩
  · rw [heq]
  · rw [heq]
    rfl
  · have hnil := h slot o (hslots ▸ List.mem_cons_self) ho
    have hset := placeCount_setSlot_empty b slot s (holding_none Order.buffers)
    rw [slotHolding_some ho, hnil] at hset
    rw [heq]
    exact hset

/-! ### Team -/

@[simp] theorem placeCount_requestPresence (b : BufferNumber) (flag : PresenceFlag) (s : State) :
    placeCount b (requestPresence flag s) = placeCount b s := placeCount_withdraw b _ _

@[simp] theorem placeCount_clearTeam (b : BufferNumber) (s : State) : placeCount b (clearTeam s) = placeCount b s := by
  unfold clearTeam
  rw [placeCount_emptyReadbacks, placeCount_clearContexts]
  exact placeCount_of_agree b (by simp)

@[simp] theorem placeCount_joined (b : BufferNumber) (team : Team) (s : State) : placeCount b (joined team s) = placeCount b s :=
  (placeCount_requestPresence b _ _).trans (placeCount_clearTeam b { s with tmu.leavePending := false })

@[simp] theorem placeCount_presenceCompleted (b : BufferNumber) (flag : PresenceFlag) (s : State) :
    placeCount b (presenceCompleted flag s) = placeCount b s := by
  cases flag with
  | normal => rfl
  | joining => rfl
  | leaving =>
    unfold presenceCompleted
    dsimp only
    split
    · exact placeCount_clearTeam b s
    · rfl

/-! ### Completion of a call (R60 to R65)

A call that completes gives up the buffers of context i for those of the whole call: the context does not hold the last fragment's
buffer, and holds none of a one-fragment call. -/

theorem placeCount_offerIfConfirm (b : BufferNumber) (c : Context) (d : Digest) (v : Verdict) (s : State) :
    placeCount b (offerIfConfirm c d v s) = placeCount b s := by
  unfold offerIfConfirm
  split
  · exact placeCount_offerReadback b _ s
  · rfl

/-- The read-back owed and the record of the delivery hold no buffers. -/
theorem placeCount_answered (b : BufferNumber) (c : Context) (d : Digest) (v : Verdict) (s : State) :
    placeCount b (rememberDelivered c d v (offerIfConfirm c d v s)) = placeCount b s :=
  (placeCount_of_agree b (by simp)).trans (placeCount_offerIfConfirm b c d v s)

theorem contextHolding_answered (i : Nat) (c : Context) (d : Digest) (v : Verdict) (s : State) :
    contextHolding i (rememberDelivered c d v (offerIfConfirm c d v s)) = contextHolding i s :=
  contextHolding_of_contexts i (by simp)

theorem placeCount_placeRecord (b : BufferNumber) (i : Nat) (c : Context) (lastStamp : Stamp) (s : State) :
    placeCount b (placeRecord i c lastStamp s) + (contextHolding i s).count b = placeCount b s + c.buffers.count b := by
  have hvacate := placeCount_vacate b i { s with asu.rcq := s.asu.rcq ++ [recordOf c lastStamp s] }
  have hholding : contextHolding i { s with asu.rcq := s.asu.rcq ++ [recordOf c lastStamp s] } = contextHolding i s := rfl
  have hjoined : placeCount b { s with asu.rcq := s.asu.rcq ++ [recordOf c lastStamp s] } = placeCount b s + c.buffers.count b := by
    simp only [placeCount_eq, List.flatMap_append, List.flatMap_singleton, List.count_append, recordOf]
    omega
  rw [hholding, hjoined] at hvacate
  exact hvacate

theorem placeCount_deliverPartActed (b : BufferNumber) (i : Nat) (c : Context) (d : Digest) (v : Verdict) (index : Nat) (stamp : Stamp)
    (s : State) :
    placeCount b (deliverPartActed i c d v index stamp s) + (contextHolding i s).count b = placeCount b s + c.buffers.count b := by
  rw [← contextHolding_answered i c d v s, ← placeCount_answered b c d v s]
  unfold deliverPartActed
  dsimp only
  split
  · split
    · exact placeCount_placeRecord b i c stamp _
    · exact placeCount_abandon_raiseException b i c _ _
  · exact placeCount_abandon b i c _

theorem placeCount_deliverProcessorActed (b : BufferNumber) (i : Nat) (c : Context) (d : Digest) (v : Verdict) (index : Nat)
    (stamp : Stamp) (s : State) :
    placeCount b (deliverProcessorActed i c d v index stamp s) + (contextHolding i s).count b =
      placeCount b s + c.buffers.count b := by
  unfold deliverProcessorActed
  split
  · split
    · rw [placeCount_answered]
      exact placeCount_placeRecord b i c stamp s
    · exact placeCount_abandon_raiseException b i c _ s
  · rw [← contextHolding_answered i c d v s, ← placeCount_answered b c d v s]
    exact placeCount_abandon b i c _

theorem placeCount_completeNew (b : BufferNumber) (i : Nat) (c : Context) (d : Digest) (index : Nat) (stamp : Stamp) (s : State) :
    placeCount b (completeNew i c d index stamp s) + (contextHolding i s).count b = placeCount b s + c.buffers.count b := by
  have hdecided : placeCount b (decideVerdict c.sender c.callType s).2 = placeCount b s := placeCount_of_agree b (by simp)
  rw [← contextHolding_of_contexts (t := (decideVerdict c.sender c.callType s).2) i (by simp), ← hdecided]
  unfold completeNew
  dsimp only
  split
  · exact placeCount_deliverPartActed b i c d _ index stamp _
  · exact placeCount_deliverProcessorActed b i c d _ index stamp _

theorem placeCount_completeDuplicate (b : BufferNumber) (i : Nat) (c : Context) (d : Digest) (v : Verdict) (s : State) :
    placeCount b (completeDuplicate i c d v s) + (contextHolding i s).count b = placeCount b s + c.buffers.count b := by
  have hoffered : placeCount b (offerIfConfirm c d v (countDuplicate (abandon i c s))) = placeCount b (abandon i c s) :=
    (placeCount_offerIfConfirm b c d v _).trans (placeCount_of_agree b (by simp))
  rw [← placeCount_abandon b i c s, ← hoffered]
  unfold completeDuplicate
  dsimp only
  split
  · rw [placeCount_of_agree (s := offerIfConfirm c d v (countDuplicate (abandon i c s))) b (by simp)]
  · rfl

theorem placeCount_completeCall (b : BufferNumber) (i : Nat) (c : Context) (index : Nat) (stamp : Stamp) (s : State) :
    placeCount b (completeCall i c index stamp s) + (contextHolding i s).count b = placeCount b s + c.buffers.count b := by
  unfold completeCall
  split
  · exact placeCount_abandon_raiseException b i c _ s
  · dsimp only
    split
    · exact placeCount_completeDuplicate b i c _ _ s
    · exact placeCount_completeNew b i c _ index stamp s

/-! ### Fragments and aging (R55 to R58, R70, R71) -/

@[simp] theorem placeCount_startCall (b : BufferNumber) (burst : Burst) (stamp : Stamp) (s : State) :
    placeCount b (startCall burst stamp s) = placeCount b s := by
  unfold startCall
  split
  · exact placeCount_raiseException b _ s
  · rename_i i hempty
    obtain ⟨hi, hvacant, -⟩ := firstEmpty_some hempty
    split
    · exact placeCount_raiseException b _ s
    · rename_i buffer rest hfree
      have htaken := placeCount_takeBuffer b burst.body hfree
      have hholding : contextHolding i (takeBuffer buffer burst.body s) = [] := contextHolding_none hvacant
      dsimp only
      split
      · rw [placeCount_returnBuffers, placeCount_raiseException, htaken]
      · split
        · have hcall := placeCount_completeCall b i (contextFrom burst buffer stamp) 0 stamp (takeBuffer buffer burst.body s)
          rw [hholding, List.count_nil, Nat.add_zero] at hcall
          exact hcall.trans htaken
        · have hset := placeCount_setContext b (contextFrom burst buffer stamp) (s := takeBuffer buffer burst.body s) hi
          rw [hholding, List.count_nil, Nat.add_zero] at hset
          exact hset.trans htaken

@[simp] theorem placeCount_fragmentZero (b : BufferNumber) (burst : Burst) (stamp : Stamp) (s : State) :
    placeCount b (fragmentZero burst stamp s) = placeCount b s := by
  unfold fragmentZero
  split
  · rename_i i c hc
    split
    · exact placeCount_of_agree b (by simp)
    · rw [placeCount_startCall, placeCount_abandon_standing b _ (contextOf_some hc).1]
  · exact placeCount_startCall b burst stamp s

theorem placeCount_takeInOrder (b : BufferNumber) {i : Nat} {c : Context} (burst : Burst) (index : Nat) (stamp : Stamp) {s : State}
    (h : slotAt s.asu.contexts i = some c) : placeCount b (takeInOrder i c burst index stamp s) = placeCount b s := by
  unfold takeInOrder
  split
  · exact placeCount_abandon_standing b _ h
  · split
    · exact placeCount_abandon_standing b _ h
    · rename_i buffer rest hfree
      have htaken := placeCount_takeBuffer b burst.body hfree
      have hholding : contextHolding i (takeBuffer buffer burst.body s) = c.buffers := contextHolding_some h
      dsimp only
      split
      · have hcall := placeCount_completeCall b i
          { c with buffers := c.buffers ++ [buffer], age := 0, crowdedSeen := c.crowdedSeen || burst.crowded } index stamp
          (takeBuffer buffer burst.body s)
        rw [hholding, List.count_append] at hcall
        omega
      · have hset := placeCount_setContext b
          { c with buffers := c.buffers ++ [buffer], age := 0, crowdedSeen := c.crowdedSeen || burst.crowded, next := c.next + 1 }
          (s := takeBuffer buffer burst.body s) (slotAt_lt h)
        rw [hholding, List.count_append] at hset
        omega

@[simp] theorem placeCount_laterFragment (b : BufferNumber) (burst : Burst) (index : Nat) (stamp : Stamp) (s : State) :
    placeCount b (laterFragment burst index stamp s) = placeCount b s := by
  unfold laterFragment
  split
  · exact placeCount_of_agree b (by simp)
  · rename_i i c hc
    obtain ⟨hslot, -⟩ := contextFor_some hc
    split
    · exact placeCount_of_agree b (by simp)
    · split
      · exact placeCount_abandon_standing b _ hslot
      · exact placeCount_takeInOrder b burst index stamp hslot

@[simp] theorem placeCount_callArrived (b : BufferNumber) (burst : Burst) (stamp : Stamp) (s : State) :
    placeCount b (callArrived burst stamp s) = placeCount b s := by
  unfold callArrived
  split
  · split
    · exact placeCount_fragmentZero b burst stamp s
    · exact placeCount_laterFragment b burst _ stamp s
  · split
    · exact placeCount_of_agree b (by simp)
    · rfl

@[simp] theorem placeCount_ageContext (b : BufferNumber) (i : Nat) (s : State) :
    placeCount b (ageContext i s) = placeCount b s := by
  rcases ageContext_cases i s with ⟨-, heq⟩ | ⟨c, hc, ⟨-, heq⟩ | ⟨-, heq⟩⟩
  · rw [heq]
  · rw [heq, placeCount_abandon_standing b _ hc]
  · have hset := placeCount_setContext b { c with age := c.age + 1 } (slotAt_lt hc)
    rw [contextHolding_some hc] at hset
    rw [heq]
    exact Nat.add_right_cancel hset

@[simp] theorem placeCount_ageContexts (b : BufferNumber) (s : State) : placeCount b (ageContexts s) = placeCount b s := by
  unfold ageContexts
  generalize List.range s.asu.contexts.length = slots
  induction slots generalizing s with
  | nil => rfl
  | cons i rest ih => rw [List.foldl_cons, ih, placeCount_ageContext]

/-! ### A burst received (R11 to R14) -/

@[simp] theorem placeCount_routeHomeBurst (b : BufferNumber) (burst : Burst) (stamp : Stamp) (s : State) :
    placeCount b (routeHomeBurst burst stamp s) = placeCount b s := by
  unfold routeHomeBurst
  split
  · exact placeCount_callArrived b burst stamp s
  · split
    · exact placeCount_readbackArrived b burst s
    · rfl
  · exact placeCount_of_agree b (by simp)
  · exact placeCount_of_agree b (by simp)

@[simp] theorem placeCount_sortByTeam (b : BufferNumber) (burst : Burst) (stamp : Stamp) (s : State) :
    placeCount b (sortByTeam burst stamp s) = placeCount b s := by
  have hheard : placeCount b (honourAllstop stamp s) = placeCount b s := placeCount_of_agree b (by simp)
  have hforeign : placeCount b (countForeign s) = placeCount b s := placeCount_of_agree b (by simp)
  unfold sortByTeam
  split
  · split
    · exact hheard
    · exact hforeign
  · split
    · rw [placeCount_routeHomeBurst]
      exact placeCount_of_agree b (by simp)
    · split
      · split
        · exact hheard
        · exact hforeign
      · exact hforeign

@[simp] theorem placeCount_goodBurst (b : BufferNumber) (burst : Burst) (stamp : Stamp) (s : State) :
    placeCount b (goodBurst burst stamp s) = placeCount b s := by
  unfold goodBurst
  dsimp only
  split
  · rfl
  · split
    · rfl
    · rw [placeCount_sortByTeam]
      split <;> rfl

@[simp] theorem placeCount_classify (b : BufferNumber) (octets : List Byte) (stamp : Stamp) (s : State) :
    placeCount b (classify octets stamp s) = placeCount b s := by
  unfold classify
  dsimp only
  split
  · exact placeCount_goodBurst b _ stamp _
  · exact placeCount_of_agree b (by simp)

/-! ### The access sequence and its completions (R37 to R40, R51) -/

@[simp] theorem placeCount_gapCompleted (b : BufferNumber) (s : State) : placeCount b (gapCompleted s) = placeCount b s := by
  unfold gapCompleted
  split
  · exact placeCount_goOnAir b s
  · rfl

@[simp] theorem placeCount_slotCompleted (b : BufferNumber) (s : State) : placeCount b (slotCompleted s) = placeCount b s := by
  unfold slotCompleted
  dsimp only
  split
  · exact placeCount_goOnAir b _
  · rfl

@[simp] theorem placeCount_forceExpired (b : BufferNumber) (s : State) : placeCount b (forceExpired s) = placeCount b s := by
  unfold forceExpired
  split
  · rfl
  · exact placeCount_goOnAir b s

@[simp] theorem placeCount_reportCompletion (b : BufferNumber) (source : Source) (s : State) :
    placeCount b (reportCompletion source s) = placeCount b s := by
  cases source with
  | fragment slot index => exact placeCount_fragmentCompleted b slot index _
  | readback => rfl
  | presence flag => exact placeCount_presenceCompleted b flag _
  | allstop team => exact placeCount_allstopCompleted b _

@[simp] theorem placeCount_leaveOnAir (b : BufferNumber) (s : State) : placeCount b (leaveOnAir s) = placeCount b s := by
  unfold leaveOnAir
  split
  · split
    · exact placeCount_goOnAir b s
    · rfl
  · rfl

@[simp] theorem placeCount_onAirCompleted (b : BufferNumber) (s : State) : placeCount b (onAirCompleted s) = placeCount b s := by
  unfold onAirCompleted
  split
  · rw [placeCount_leaveOnAir, placeCount_reportCompletion]
    rfl
  · rfl

/-! ### The balance of R77 from event to event -/

theorem BuffersBalanced.of_agree {s t : State} (h : BuffersBalanced s) (hagree : t.bpl = s.bpl ∧
    t.asu.contexts = s.asu.contexts ∧ t.asu.rcq = s.asu.rcq ∧ orderBuffers t.odu.ool = orderBuffers s.odu.ool) : BuffersBalanced t :=
  h.of_placeCount fun b => placeCount_of_agree b hagree

theorem balanced_drivePins (s : State) (h : BuffersBalanced s) : BuffersBalanced (drivePins s) := h

theorem balanced_arbitrate {s : State} (h : BuffersBalanced s) : BuffersBalanced (arbitrate s) :=
  h.of_placeCount fun b => placeCount_arbitrate b s

theorem balanced_settle {s : State} (h : BuffersBalanced s) : BuffersBalanced (drivePins (arbitrate s)) :=
  balanced_drivePins _ (balanced_arbitrate h)

/-- All 128 buffers are free, and nothing else holds one: what a reset, entry to RUNNING and RESTART leave (R83). -/
theorem balanced_of_all_free {s : State} (hfree : s.bpl.free = List.finRange 128) (hheld : s.bpl.held = []) (hasu : s.asu = Asu.reset)
    (hool : s.odu.ool = Odu.reset.ool) : BuffersBalanced s := by
  have hcontexts : contextBuffers Asu.reset.contexts = [] := rfl
  have horders : orderBuffers Odu.reset.ool = [] := rfl
  have hrcq : Asu.reset.rcq = [] := rfl
  simp [BuffersBalanced, bufferPlaces, hfree, hheld, hasu, hool, hcontexts, horders, hrcq]

theorem balanced_octetRead (x : Byte) {s : State} (h : BuffersBalanced s) : BuffersBalanced (octetRead x s) := by
  unfold octetRead
  dsimp only
  split
  · unfold checkBlock
    split
    · exact h
    · split
      · exact h
      · exact balanced_of_all_free rfl rfl rfl rfl
  · exact h

theorem balanced_restart {s : State} (h : BuffersBalanced s) : BuffersBalanced (restart s).state := by
  unfold restart
  split
  · exact balanced_settle (balanced_of_all_free rfl rfl rfl rfl)
  · exact h

/-- Order by order the wait timers run on, and the buffers stay. -/
theorem balanced_tick (s : State) (h : BuffersBalanced s) : BuffersBalanced (tick s) := by
  have hticked : orderBuffers (s.odu.ool.map (Option.map Order.tick)) = orderBuffers s.odu.ool := by
    rw [orderBuffers_eq_flatMap, orderBuffers_eq_flatMap, List.flatMap_map]
    exact List.flatMap_congr fun slot _ => by cases slot <;> rfl
  unfold tick
  dsimp only
  split
  · exact h.of_agree ⟨rfl, rfl, rfl, hticked⟩
  · exact h

theorem balanced_answerFrame {c : PortCommand} {f : Frame} {own : State → PortResult} {s t : State} (h : BuffersBalanced s)
    (hnext : answerFrame c f own s = .next t) (hown : BuffersBalanced (own s).state) : BuffersBalanced t :=
  answerFrame_keeps (fun _ _ _ _ h => h) h hown hnext

theorem balanced_leaves {r : PortResult} {s effect : State} (hl : leaves r s effect) (h : BuffersBalanced s)
    (heffect : BuffersBalanced effect) : BuffersBalanced r.state := leaves_keeps balanced_drivePins hl h heffect

theorem balanced_submitOrder (sub : Submission) {s : State} (h : BuffersBalanced s) : BuffersBalanced (submitOrder sub s).state := by
  obtain ⟨slot, hleaves, hok⟩ := submitOrder_leaves sub s
  rcases hleaves with ⟨heq, -⟩ | ⟨hanswer, heq⟩
  · rwa [heq]
  · obtain ⟨-, hempty⟩ := hok hanswer
    rw [heq]
    exact balanced_settle (h.of_placeCount fun b => placeCount_acceptOrder b sub hempty)

theorem balanced_cancelInSlot (slot : Byte) {s : State} (h : BuffersBalanced s) : BuffersBalanced (cancelInSlot slot s).state := by
  rcases cancelInSlot_leaves slot s with ⟨heq, -⟩ | ⟨o, ho, -, -, heq⟩
  · rwa [heq]
  · rw [heq]
    exact balanced_settle (h.of_placeCount fun b => placeCount_cancelOrder b ho)

/-- R80: the record's buffers pass to the held call. -/
theorem balanced_takeCall {s : State} (h : BuffersBalanced s) : BuffersBalanced (takeCall s).state := by
  rcases takeCall_leaves s with ⟨heq, -⟩ | ⟨r, rest, hrcq, heq⟩
  · exact heq ▸ h
  · rw [heq]
    refine h.of_placeCount fun b => ?_
    simp only [placeCount_eq, accept, drivePins_bpl, drivePins_asu, drivePins_odu, hrcq, List.flatMap_cons, List.flatMap_append,
      List.flatMap_nil, List.append_nil, List.count_append]
    omega

/-- R81: the call that the handle names leaves the held calls, and its buffers return. -/
theorem balanced_releaseCall (handle : Byte) {s : State} (h : BuffersBalanced s) : BuffersBalanced (releaseCall handle s).state := by
  rcases releaseCall_leaves handle s with ⟨heq, -⟩ | ⟨call, -, -, hfind, heq⟩
  · exact heq ▸ h
  · have hheld : s.bpl.held.Perm (call :: s.bpl.held.eraseP (namesHeld handle)) := by
      obtain ⟨hnamed, before, after, hsplit, hothers⟩ := List.find?_eq_some_iff_append.mp hfind
      rw [hsplit, List.eraseP_append_right _ (by simpa using hothers), List.eraseP_cons_of_pos hnamed]
      exact List.perm_middle
    rw [heq]
    refine h.of_placeCount fun b => ?_
    have hcount := (hheld.flatMap_right HeldCall.buffers).count_eq b
    rw [List.flatMap_cons, List.count_append] at hcount
    simp only [accept, placeCount_eq, drivePins_bpl, drivePins_asu, drivePins_odu, returnBuffers_free, returnBuffers_bpl_held,
      returnBuffers_asu, returnBuffers_odu, List.count_append]
    omega

theorem balanced_takeResult {s : State} (h : BuffersBalanced s) (hfinished : FinishedHeld s) : BuffersBalanced (takeResult s).state := by
  refine balanced_leaves (takeResult_leaves s) h (h.of_placeCount fun b => ?_)
  exact placeCount_moveHeldResult b (s := { s with odu.rsq := s.odu.rsq.tail }) fun _ _ => hfinished.buffers_eq_nil

theorem balanced_sendAllstop (scope : Byte) {s : State} (h : BuffersBalanced s) : BuffersBalanced (sendAllstop scope s).state := by
  obtain ⟨team, hleaves⟩ := sendAllstop_leaves scope s
  exact balanced_leaves hleaves h (balanced_arbitrate (h.of_placeCount fun b => placeCount_startSeries b team s))

theorem balanced_setTerminal (present : Bool) {s : State} (h : BuffersBalanced s) :
    BuffersBalanced (accept [] (setTerminal present s)).state := by
  have hset : BuffersBalanced (setTerminal present s) := h.of_agree (by simp)
  exact balanced_drivePins _ hset

theorem balanced_emergencyKeyEdge {s t : State} (h : BuffersBalanced s) (hnext : execEmergencyKeyEdge s = .next t) :
    BuffersBalanced t := by
  rcases execEmergencyKeyEdge_next hnext with ⟨-, rfl⟩ | ⟨-, -, rfl⟩ | ⟨-, -, rfl⟩
  · exact h
  · exact h
  · exact balanced_settle (h.of_placeCount fun b => placeCount_startSeries b _ _)

/-- Every command but CONFIG_OCTET_READ, RESET and RESTART, which may free all buffers at once, leaves each buffer in as many places as
it was in; TAKE RESULT needs that a FINISHED order holds none. -/
theorem balanced_exec (c : Instr) {s t : State} (h : BuffersBalanced s) (hfinished : FinishedHeld s) (hnext : exec c s = .next t) :
    BuffersBalanced t := by
  cases c with
  | reset cause =>
    rcases execReset_next cause hnext with ⟨-, rfl⟩ | ⟨-, rfl⟩
    · exact balanced_of_all_free rfl rfl rfl rfl
    · exact h
  | resetEnd => exact taken_keeps (execResetEnd_next hnext) h fun _ => h
  | configOctetRead octet =>
    exact taken_keeps (execConfigOctetRead_next octet hnext) h fun _ => balanced_settle (balanced_octetRead octet h)
  | noMemory => exact taken_keeps (execNoMemory_next hnext) h fun _ => h
  | burstSync => exact taken_keeps (execBurstSync_next hnext) h fun _ => h.of_agree (by simp)
  | burstReceived octets =>
    rcases execBurstReceived_next hnext with ⟨stamp, -, -, rfl⟩ | ⟨-, rfl⟩
    · exact balanced_settle (h.of_placeCount fun b => placeCount_classify b octets stamp s)
    · exact h
  | shortBurst => exact taken_keeps (execShortBurst_next hnext) h fun _ => h
  | levelSample level => exact taken_keeps (execLevelSample_next level hnext) h fun _ => h
  | paceTimerExpiry =>
    exact taken_keeps (execPaceTimerExpiry_next hnext) h fun _ => balanced_settle (s := { s with cau := _ }) h
  | gapComplete =>
    exact taken_keeps (execGapComplete_next hnext) h fun _ => balanced_settle (h.of_placeCount (placeCount_gapCompleted · s))
  | slotComplete =>
    exact taken_keeps (execSlotComplete_next hnext) h fun _ => balanced_settle (h.of_placeCount (placeCount_slotCompleted · s))
  | onAirCompletion =>
    exact taken_keeps (execOnAirCompletion_next hnext) h fun _ => balanced_settle (h.of_placeCount (placeCount_onAirCompleted · s))
  | forceTimerExpiry =>
    exact taken_keeps (execForceTimerExpiry_next hnext) h fun _ => balanced_settle (h.of_placeCount (placeCount_forceExpired · s))
  | readbackWaitExpiry slot =>
    exact taken_keeps (execReadbackWaitExpiry_next slot hnext) h fun _ =>
      balanced_settle (h.of_placeCount (placeCount_waitExpired · slot.val s))
  | agingTimerExpiry => exact taken_keeps (execAgingTimerExpiry_next hnext) h fun _ => h.of_placeCount (placeCount_ageContexts · _)
  | silenceTimerExpiry => exact taken_keeps (execSilenceTimerExpiry_next hnext) h fun _ => h.of_agree (by simp)
  | presenceTimerExpiry =>
    exact taken_keeps (execPresenceTimerExpiry_next hnext) h fun _ => balanced_settle (h.of_agree (by simp))
  | offerTimerExpiry => exact taken_keeps (execOfferTimerExpiry_next hnext) h fun _ => h.of_agree (by simp)
  | holdExpiry => exact taken_keeps (execHoldExpiry_next hnext) h fun _ => h
  | emergencyKeyEdge => exact balanced_emergencyKeyEdge h hnext
  | emergencyKeyRelease => rcases execEmergencyKeyRelease_next hnext with ⟨-, rfl⟩ | ⟨-, rfl⟩ <;> exact h
  | cabStopTransition active =>
    rcases execCabStopTransition_next hnext with ⟨-, rfl⟩ | ⟨-, -, rfl⟩ | ⟨-, -, rfl⟩
    · exact h
    · exact h
    · exact h.of_agree (by simp)
  | selectActive => rcases execSelectActive_next hnext with ⟨-, rfl⟩ | ⟨-, rfl⟩ <;> exact h
  | selectInactive => rcases execSelectInactive_next hnext with ⟨-, rfl⟩ | ⟨-, rfl⟩ <;> exact h
  | badCommand code f => rcases execBadCommand_next hnext with ⟨-, rfl⟩ | ⟨-, rfl⟩ <;> exact h
  | readStatus f => exact balanced_answerFrame h hnext h
  | submitOrder f => exact balanced_answerFrame h hnext (balanced_submitOrder _ h)
  | cancelOrder f => exact balanced_answerFrame h hnext (balanced_cancelInSlot _ h)
  | takeCall f => exact balanced_answerFrame h hnext (balanced_takeCall h)
  | releaseCall f => exact balanced_answerFrame h hnext (balanced_releaseCall _ h)
  | takeException f => exact balanced_answerFrame h hnext (balanced_leaves (takeException_leaves s) h h)
  | takeResult f => exact balanced_answerFrame h hnext (balanced_takeResult h hfinished)
  | readPeers f => exact balanced_answerFrame h hnext h
  | sendAllstop f => exact balanced_answerFrame h hnext (balanced_sendAllstop _ h)
  | stopRequest f => exact balanced_answerFrame h hnext (balanced_setTerminal true h)
  | clearTerminalStop f => exact balanced_answerFrame h hnext (balanced_setTerminal false h)
  | joinTeam f =>
    have hjoined := balanced_arbitrate (h.of_placeCount (placeCount_joined · (octetAt f.params 0) s))
    exact balanced_answerFrame h hnext (balanced_leaves (joinTeam_leaves _ s) h hjoined)
  | leaveTeam f =>
    have hrequested := balanced_arbitrate
      (h.of_placeCount (placeCount_requestPresence · .leaving { s with tmu.leavePending := true }))
    exact balanced_answerFrame h hnext (balanced_leaves (leaveTeam_leaves s) h hrequested)
  | narrowRange f => exact balanced_answerFrame h hnext (balanced_leaves (narrowRange_leaves _ _ s).1 h h)
  | readCounts f => exact balanced_answerFrame h hnext h
  | readAndClearCounts f => exact balanced_answerFrame h hnext h
  | setMask f => exact balanced_answerFrame h hnext (balanced_leaves (setMask_leaves _ s) h h)
  | restart f => exact balanced_answerFrame h hnext (balanced_restart h)

/-- Settles O53: buffer by buffer, the number of places that hold it stays 1 through every command and every millisecond. -/
theorem buffersAreNeverLostOrLentTwice : Obligations.BuffersAreNeverLostOrLentTwice := by
  intro s t h hfinished hstep
  unfold step at hstep
  split at hstep
  · cases hstep
    exact balanced_tick s h
  · rename_i c rest _
    exact balanced_exec c (s := { s with pending := rest }) h hfinished hstep

end Sys2Proof.Machine
end

section
/-! PROOF. Orders from their submission to their result, and what the port takes out (05 section 5.4; 06 sections 6.2 to 6.7; 09
section 9.1): what each operation of the Order Unit does, case by case, and the statements about it. -/

namespace Sys2Proof.Machine

/-! ### A frame at the port (R144, R145) -/

theorem answerFrame_of_passes {c : PortCommand} {f : Frame} {s : State} (h : FramePasses c f s) (own : State → PortResult) :
    answerFrame c f own s = .next (withReply c.code (own s).answer (own s).data (own s).state) := by
  obtain ⟨hport, hcheck, haccepted, hlength⟩ := h
  have hpasses : frameRefusal c f s.cfl.part = none := by simp [frameRefusal, frameCheckGood, hcheck, haccepted, ← hlength]
  simp only [answerFrame, hport, hpasses, if_true]

theorem answerFrame_refused {c : PortCommand} {f : Frame} {s : State} {own : State → PortResult} {answer : ReplyCode}
    (h : FramePasses c f s) (hown : own s = refuse answer s) : answerFrame c f own s = .next (turnedDown c answer s) := by
  rw [answerFrame_of_passes h, hown]
  rfl

theorem answerFrame_accepted {c : PortCommand} {f : Frame} {s effect : State} {own : State → PortResult} {data : List Byte}
    (h : FramePasses c f s) (hown : own s = accept data effect) : answerFrame c f own s = .next (replied c data effect) := by
  rw [answerFrame_of_passes h, hown]
  rfl

/-- Of the eighteen commands only READ STATUS and RESTART have a part state other than RUNNING that takes them further (R145). -/
theorem answerFrame_outsideRunning {c : PortCommand} {f : Frame} {s : State} (own : State → PortResult)
    (h : FrameOutsideRunning c f s) (hstatus : c ≠ .readStatus) (hrestart : c ≠ .restart) :
    answerFrame c f own s = .next (turnedDown c .notRunning s) := by
  obtain ⟨hport, hcheck, hpart⟩ := h
  have hnot : c.acceptedIn s.cfl.part = false := by
    cases hp : s.cfl.part with
    | running => exact absurd hp hpart
    | halted => simp [PortCommand.acceptedIn, hstatus, hrestart]
    | configuring => simp [PortCommand.acceptedIn, hstatus]
  have hrefused : frameRefusal c f s.cfl.part = some .notRunning := by simp [frameRefusal, frameCheckGood, hcheck, hnot]
  simp only [answerFrame, hport, hrefused, if_true]
  rfl

/-! ### Slots -/

theorem mem_inUse_of_slotAt {α : Type} {slots : List (Option α)} {i : Nat} {a : α} (h : slotAt slots i = some a) :
    a ∈ inUse slots := by
  have hi := slotAt_lt h
  have hget : slots[i] = some a := by simpa [slotAt, List.getD, hi] using h
  exact List.mem_filterMap.mpr ⟨some a, hget ▸ List.getElem_mem hi, rfl⟩

/-- Where the contents of the slots in use differ in a field, the field tells the slot. -/
theorem slot_eq_of_nodup {α β : Type} {f : α → β} {slots : List (Option α)} (hnodup : ((inUse slots).map f).Nodup)
    {i j : Nat} {a b : α} (hi : slotAt slots i = some a) (hj : slotAt slots j = some b) (hf : f a = f b) : i = j := by
  induction slots generalizing i j with
  | nil => simp [slotAt] at hi
  | cons x rest ih =>
    have hrest : ((inUse rest).map f).Nodup :=
      hnodup.sublist (((List.sublist_cons_self x rest).filterMap id).map f)
    have hhead {k : Nat} {c d : α} (hx : x = some c) (hk : slotAt rest k = some d) : f c ≠ f d := by
      subst hx
      intro hcd
      have hnot : f c ∉ (inUse rest).map f := (List.nodup_cons.mp hnodup).1
      exact hnot (hcd ▸ List.mem_map_of_mem (mem_inUse_of_slotAt hk))
    cases i with
    | zero =>
      cases j with
      | zero => rfl
      | succ j => exact absurd hf (hhead hi hj)
    | succ i =>
      cases j with
      | zero => exact absurd hf.symm (hhead hj hi)
      | succ j => exact congrArg (· + 1) (ih hrest hi hj)

/-- The only slot whose content satisfies the test is the one found. -/
theorem findSlot_of_unique {α : Type} {p : α → Bool} {slots : List (Option α)} {i : Nat} {a : α} (h : slotAt slots i = some a)
    (hp : p a = true) (hunique : ∀ j b, slotAt slots j = some b → p b = true → j = i) : findSlot p slots = some (i, a) := by
  cases hfound : findSlot p slots with
  | none => simp [findSlot_none hfound h] at hp
  | some found =>
    obtain ⟨j, b⟩ := found
    obtain ⟨hj, hb, -⟩ := findSlot_some hfound
    obtain rfl := hunique j b hj hb
    rw [h] at hj
    cases hj
    rfl

theorem firstEmpty_eq_none_iff {α : Type} {slots : List (Option α)} : firstEmpty slots = none ↔ none ∉ slots := by
  induction slots with
  | nil => simp [firstEmpty]
  | cons x rest ih => cases x <;> simp_all [firstEmpty]

@[simp] theorem setSlot_setSlot (slot : Nat) (x y : Option Order) (s : State) : setSlot slot x (setSlot slot y s) = setSlot slot x s := by
  simp [setSlot]

/-! ### Members and their answers (R97) -/

theorem unansweredMember_iff {station : Station} {o : Order} :
    unansweredMember station o = true ↔ ∃ m ∈ o.members, m.station = station ∧ m.answer = none := by simp [unansweredMember]

theorem allAnswered_iff {members : List Member} : allAnswered members = true ↔ ∀ m ∈ members, m.answer ≠ none := by
  simp [allAnswered, Option.isSome_iff_ne_none]

theorem not_allAnswered_iff {members : List Member} : allAnswered members = false ↔ ∃ m ∈ members, m.answer = none := by
  simp [allAnswered]

theorem anyAnswered_iff {members : List Member} : anyAnswered members = true ↔ ∃ m ∈ members, m.answer ≠ none := by
  simp [anyAnswered, Option.isSome_iff_ne_none]

theorem answersOutcome_done {members : List Member} (h : ∀ m ∈ members, m.answer = some .accepted) :
    answersOutcome members = .done := if_pos (by simpa using h)

/-- A member at least is needed: of an empty set every answer is ACCEPTED too. -/
theorem answersOutcome_refused {members : List Member} (hmember : members ≠ []) (h : ∀ m ∈ members, m.answer ≠ some .accepted) :
    answersOutcome members = .refused := by
  obtain ⟨m, hm⟩ := List.exists_mem_of_ne_nil members hmember
  have hnotDone : ¬ members.all (fun m => decide (m.answer = some .accepted)) = true := by
    simpa using ⟨m, hm, h m hm⟩
  rw [answersOutcome, if_neg hnotDone, if_pos (by simpa using h)]

theorem answersOutcome_partial {members : List Member} (haccepted : ∃ m ∈ members, m.answer = some .accepted)
    (hrefused : ∃ m ∈ members, m.answer ≠ some .accepted) : answersOutcome members = .partial_ := by
  rw [answersOutcome, if_neg (by simpa using hrefused), if_neg (by simpa using haccepted)]

/-! ### A read-back that arrives (R96, R97) -/

theorem Verdict.ofByte_eq_none {b : Byte} (h : 5 < b.toNat) : Verdict.ofByte b = none := by
  unfold Verdict.ofByte
  split <;> simp_all

theorem liveWith_iff {number : CallNumber} {o : Order} : liveWith number o = true ↔ o.callNumber = number ∧ o.state ≠ .finished := by
  simp [liveWith]

theorem readbackArrived_badVerdict {b : Burst} (s : State) (h : 5 < (octetAt b.body 1).toNat) : readbackArrived b s = countStray s := by
  unfold readbackArrived
  rw [Verdict.ofByte_eq_none h]
  cases findSlot (liveWith b.callNumber) s.odu.ool <;> rfl

theorem readbackArrived_unmatched {b : Burst} {s : State} (h : ∀ i o, orderAt i s = some o → liveWith b.callNumber o = true →
    (unansweredMember b.sender o && decide (wordAt b.body 2 = o.digest)) = false) : readbackArrived b s = countStray s := by
  unfold readbackArrived
  split
  · rename_i i o v hfound _
    obtain ⟨hslot, hlive, -⟩ := findSlot_some hfound
    simp [h i o hslot hlive]
  · rfl

/-- Distinct call numbers make the order that the read-back names the one that is found. -/
theorem readbackArrived_matched {b : Burst} {s : State} {i : Nat} {o : Order} {v : Verdict}
    (hnumbers : ((inUse s.odu.ool).map Order.callNumber).Nodup) (ho : orderAt i s = some o) (hlive : liveWith b.callNumber o = true)
    (hdigest : wordAt b.body 2 = o.digest) (hmember : unansweredMember b.sender o = true)
    (hv : Verdict.ofByte (octetAt b.body 1) = some v) : readbackArrived b s = memberAnswered i o b.sender v s := by
  have hfound : findSlot (liveWith b.callNumber) s.odu.ool = some (i, o) := by
    refine findSlot_of_unique ho hlive fun j p hj hp => slot_eq_of_nodup hnumbers hj ho ?_
    rw [(liveWith_iff.mp hp).1, (liveWith_iff.mp hlive).1]
  simp [readbackArrived, hfound, hv, hmember, hdigest]

/-- The member marked and the rate raised by an ACCEPTED, before the order is looked at for its end. -/
def withAnswer (slot : Nat) (o : Order) (station : Station) (v : Verdict) (s : State) : State :=
  { s with
    odu.ool := s.odu.ool.set slot (some { o with members := markAnswered station v o.members })
    cau.rate := if v = .accepted then min s.config.rMax (s.cau.rate + s.config.increase) else s.cau.rate }

theorem memberAnswered_eq (slot : Nat) (o : Order) (station : Station) (v : Verdict) (s : State) :
    memberAnswered slot o station v s =
      if allAnswered (markAnswered station v o.members) then
        finishOrder slot (answersOutcome (markAnswered station v o.members)) (withAnswer slot o station v s)
      else withAnswer slot o station v s := by
  have hmarked : setSlot slot (some { o with members := markAnswered station v o.members })
      (if v = .accepted then paceIncrease s else s) = withAnswer slot o station v s := by
    unfold withAnswer
    split <;> rfl
  rw [memberAnswered, hmarked]

theorem memberAnswered_waiting {slot : Nat} {o : Order} {station : Station} {v : Verdict} (s : State)
    (h : ∃ m ∈ markAnswered station v o.members, m.answer = none) :
    memberAnswered slot o station v s = withAnswer slot o station v s := by
  rw [memberAnswered_eq, not_allAnswered_iff.mpr h]
  rfl

theorem memberAnswered_last {slot : Nat} {o : Order} {station : Station} {v : Verdict} (s : State) {outcome : OrderOutcome}
    (h : ∀ m ∈ markAnswered station v o.members, m.answer ≠ none)
    (houtcome : answersOutcome (markAnswered station v o.members) = outcome) :
    memberAnswered slot o station v s = finishOrder slot outcome (withAnswer slot o station v s) := by
  rw [memberAnswered_eq, if_pos (allAnswered_iff.mpr h), houtcome]

/-! ### A submission tested (R87, R88) -/

theorem submissionPermitted_iff {role : Role} {t : CallType} {target : Station} : submissionPermitted role t target = true ↔
    (t = .release → role = .portable) ∧ (t = .handoverOffer → role = .portable ∧ target ≠ 65535) ∧
      (t = .handoverTake ∨ t = .relinquish → role = .portable ∧ target = 65535) := by
  cases t <;> simp [submissionPermitted] <;> exact fun _ => Iff.rfl

theorem submissionLengthFits_iff {t : CallType} {length : Nat} : submissionLengthFits t length = true ↔
    length ≤ 174 ∧ (t = .move → length = 2) ∧ (t = .countdown → length = 1) ∧
      (t = .stop ∨ t = .release ∨ t = .handoverOffer ∨ t = .handoverTake ∨ t = .relinquish → length = 0) ∧
      (t = .cutList → length % 3 = 0 ∧ 3 ≤ length) := by
  cases t <;> simp [submissionLengthFits]

/-- R87's test of the target, read as the statement puts it: the team, or another station. -/
theorem targetAllowed_iff {target station : Station} : (target = wholeTeam ∨ (isStation target = true ∧ target ≠ station)) ↔
    target = 65535 ∨ (target ≠ 0 ∧ target ≠ station) := by
  rw [isStation_iff, wholeTeam]
  tauto

theorem submitOrder_of_refusal {sub : Submission} {s : State} {answer : ReplyCode} (h : submissionRefusal sub s = some answer) :
    submitOrder sub s = refuse answer s := by simp [submitOrder, h]

theorem submissionRefusal_notAttached {sub : Submission} {s : State} (hrun : s.cfl.part = .running)
    (h : s.tmu.attached = false ∨ s.tmu.leavePending = true) : submissionRefusal sub s = some .notAttached := by
  rcases h with h | h <;> simp [submissionRefusal, running, hrun, h]

section
variable {sub : Submission} {s : State} (hrun : s.cfl.part = .running) (hattached : s.tmu.attached = true)
  (hstays : s.tmu.leavePending = false)
include hrun hattached hstays

theorem submissionRefusal_badType (htype : CallType.ofByte sub.callType = none) : submissionRefusal sub s = some .badType := by
  simp [submissionRefusal, running, hrun, hattached, hstays, htype]

variable {t : CallType} (htype : CallType.ofByte sub.callType = some t)
include htype

theorem submissionRefusal_notPermitted (h : submissionPermitted s.config.role t sub.target = false) :
    submissionRefusal sub s = some .notPermitted := by
  simp [submissionRefusal, running, hrun, hattached, hstays, htype, h]

variable (hpermitted : submissionPermitted s.config.role t sub.target = true)
include hpermitted

theorem submissionRefusal_badLength (h : submissionLengthFits t sub.length = false) : submissionRefusal sub s = some .badLength := by
  simp [submissionRefusal, running, hrun, hattached, hstays, htype, hpermitted, h]

variable (hfits : submissionLengthFits t sub.length = true)
include hfits

/-- What is left to test of a submission that its station may make: target, slot and buffers. -/
theorem submissionRefusal_of_fits : submissionRefusal sub s =
    if ¬ (sub.target = 65535 ∨ (sub.target ≠ 0 ∧ sub.target ≠ s.config.station)) then some .badTarget
    else if none ∉ s.odu.ool then some .full
    else if s.bpl.free.length < fragmentCount sub.length then some .noBuffers
    else none := by
  simp [submissionRefusal, running, hrun, hattached, hstays, htype, hpermitted, hfits, targetAllowed_iff, firstEmpty_eq_none_iff]

end

/-! ### A fragment completed (R92, R93) -/

theorem exec_onAirCompletion_of_due {b : OnAir} {s : State} (hrun : s.cfl.part = .running) (haccess : s.cau.access = .onAir)
    (hsamples : 60 ≤ s.cau.onAirSamples) (hb : s.cau.onAir = some b) :
    exec .onAirCompletion s = .next (settle (leaveOnAir (reportCompletion b.source { s with cau.onAir := none }))) := by
  have hdue : onAirDue s = true := by simp [onAirDue, running, hrun, haccess, hsamples]
  calc exec .onAirCompletion s
      _ = .next (settle (onAirCompleted s)) := if_pos hdue
      _ = _ := by rw [onAirCompleted, hb]

theorem fragmentCompleted_ignored {slot index : Nat} {s : State}
    (h : ∀ o, orderAt slot s = some o → ¬ (o.state = .sending ∧ o.place = .onAir ∧ o.next = index)) :
    fragmentCompleted slot index s = s := by
  unfold fragmentCompleted
  split
  · rfl
  · rename_i o ho
    exact if_neg (h o ho)

section
variable {slot index : Nat} {o : Order} {s : State} (ho : orderAt slot s = some o)
  (hreport : o.state = .sending ∧ o.place = .onAir ∧ o.next = index)
include ho hreport

theorem fragmentCompleted_cancelPending (h : o.cancelPending = true) : fragmentCompleted slot index s =
    finishOrder slot .cancelled (setSlot slot (some { o with place := .none }) s) := by
  simp [fragmentCompleted, ho, hreport, h]

theorem fragmentCompleted_notLast (h : o.cancelPending = false) (hnext : index + 1 < fragmentCount o.length) :
    fragmentCompleted slot index s = setSlot slot (some { o with place := .none, next := index + 1 }) s := by
  simp [fragmentCompleted, ho, hreport, h, hnext]

theorem fragmentCompleted_last (h : o.cancelPending = false) (hlast : fragmentCount o.length ≤ index + 1) :
    fragmentCompleted slot index s =
      endAttempt slot { o with place := .none } (setSlot slot (some { o with place := .none }) s) := by
  simp [fragmentCompleted, ho, hreport, h, Nat.not_lt.mpr hlast]

end

theorem endAttempt_noConfirm {slot : Nat} {o : Order} (s : State) (h : o.confirm = false) :
    endAttempt slot o s = finishOrder slot .done s := if_pos h

theorem endAttempt_noPeers {slot : Nat} {o : Order} (s : State) (hconfirm : o.confirm = true) (h : o.members = []) :
    endAttempt slot o s = finishOrder slot .noPeers s := by simp [endAttempt, hconfirm, h]

theorem endAttempt_answered {slot : Nat} {o : Order} (s : State) (hconfirm : o.confirm = true) (hmembers : o.members ≠ [])
    (h : ∀ m ∈ o.members, m.answer ≠ none) : endAttempt slot o s = finishOrder slot (answersOutcome o.members) s := by
  simp [endAttempt, hconfirm, hmembers, allAnswered_iff.mpr h]

theorem endAttempt_waits {slot : Nat} {o : Order} (s : State) (hconfirm : o.confirm = true) (h : ∃ m ∈ o.members, m.answer = none) :
    endAttempt slot o s =
      promote (setSlot slot (some { o with state := .awaitReadback, wait := some (readbackWait s.config o.members) }) s) := by
  have ⟨m, hm, _⟩ := h
  simp [endAttempt, hconfirm, List.ne_nil_of_mem hm, not_allAnswered_iff.mpr h]

theorem readbackBase_eq (c : Config) : readbackBase c =
    if c.readbackBaseCode = 0 then 250 else if c.readbackBaseCode = 1 then 400 else if c.readbackBaseCode = 2 then 600 else 1000 := by
  unfold readbackBase
  generalize c.readbackBaseCode = code
  revert code
  decide

/-! ### A read-back wait that runs out (R94) -/

theorem exec_readbackWaitExpiry_of_due {slot : Fin 8} {o : Order} {s : State} (hrun : s.cfl.part = .running)
    (ho : orderAt slot.val s = some o) (hstate : o.state = .awaitReadback) (hwait : o.wait = some 0) :
    exec (.readbackWaitExpiry slot) s = .next (settle (waitExpired slot.val s)) := by
  have hdue : waitDue slot.val s = true := by simp [waitDue, running, hrun, ho, hstate, hwait]
  exact if_pos hdue

theorem waitExpired_retries {slot : Nat} {o : Order} {s : State} (ho : orderAt slot s = some o)
    (h : o.attempts < s.config.attemptLimit) : waitExpired slot s =
      promote (setSlot slot (some { o with state := .queued, wait := none }) (paceDecrease s)) := by
  simp [waitExpired, ho, h]

theorem waitExpired_finishes {slot : Nat} {o : Order} {s : State} (ho : orderAt slot s = some o)
    (h : s.config.attemptLimit ≤ o.attempts) :
    waitExpired slot s = finishOrder slot (if anyAnswered o.members then .partial_ else .failed) s := by
  simp [waitExpired, ho, Nat.not_lt.mpr h]

/-! ### An order cancelled (R98, R99) -/

theorem cancelInSlot_badRange {slot : Byte} (s : State) (h : 7 < slot.toNat) : cancelInSlot slot s = refuse .badRange s := if_pos h

theorem cancelInSlot_notHeld {slot : Byte} {s : State} (hslot : slot.toNat ≤ 7) (h : orderAt slot.toNat s = none) :
    cancelInSlot slot s = refuse .notHeld s := by simp [cancelInSlot, Nat.not_lt.mpr hslot, h]

theorem cancelInSlot_busy {slot : Byte} {o : Order} {s : State} (hslot : slot.toNat ≤ 7) (ho : orderAt slot.toNat s = some o)
    (h : o.state = .finished ∨ o.state = .sending ∧ o.cancelPending = true) : cancelInSlot slot s = refuse .busy s := by
  simp only [cancelInSlot, Nat.not_lt.mpr hslot, ho, h, if_true, if_false]

theorem cancelInSlot_accepted {slot : Byte} {o : Order} {s : State} (hslot : slot.toNat ≤ 7) (ho : orderAt slot.toNat s = some o)
    (h : ¬ (o.state = .finished ∨ o.state = .sending ∧ o.cancelPending = true)) :
    cancelInSlot slot s = accept [] (arbitrate (cancelOrder slot.toNat o s)) := by
  simp only [cancelInSlot, Nat.not_lt.mpr hslot, ho, h, if_false]

theorem cancelOrder_onAir {slot : Nat} {o : Order} (s : State) (hstate : o.state = .sending) (hplace : o.place = .onAir) :
    cancelOrder slot o s = setSlot slot (some { o with cancelPending := true }) s := if_pos ⟨hstate, hplace⟩

theorem cancelOrder_finishes {slot : Nat} {o : Order} (s : State) (h : ¬ (o.state = .sending ∧ o.place = .onAir)) :
    cancelOrder slot o s = finishOrder slot .cancelled s := if_neg h

/-! ### What the port takes out (R80, R81, R103) -/

theorem Verdict.codes_eq_toByte : (fun v : Verdict =>
    if v = .accepted then 0 else if v = .refusedNotHolder then 1 else if v = .refusedStopped then 2
    else if v = .refusedNoOffer then 3 else if v = .refusedTooSoon then 4 else 5) = Verdict.toByte :=
  funext fun v => by cases v <;> rfl

theorem OrderOutcome.toByte_eq (x : OrderOutcome) : x.toByte =
    if x = .done then 0 else if x = .partial_ then 1 else if x = .refused then 2 else if x = .failed then 3
    else if x = .noPeers then 4 else 5 := by cases x <;> rfl

/-- Five marks in the low bits of an octet, the lowest last. -/
theorem marks_eq_octet (b4 b3 b2 b1 b0 : Bool) :
    0#3 ++ BitVec.ofBool b4 ++ BitVec.ofBool b3 ++ BitVec.ofBool b2 ++ BitVec.ofBool b1 ++ BitVec.ofBool b0 =
      octet (b0.toNat + 2 * b1.toNat + 4 * b2.toNat + 8 * b3.toNat + 16 * b4.toNat) := by
  revert b4 b3 b2 b1 b0
  decide

theorem Role.bit_toNat (role : Role) : (Role.bit role).toNat = if role = .locomotive then 1 else 0 := by cases role <;> rfl

theorem two_mul_decide_toNat (p : Prop) [Decidable p] : 2 * (decide p).toNat = if p then 2 else 0 := by split <;> simp_all

/-- The 21 octets of a record as 12 section 12.2 places them. -/
theorem CallRecord.octets_eq {r : CallRecord} {handle : BufferNumber} {more : List BufferNumber} (h : r.buffers = handle :: more) :
    r.octets = octetsOf r.sender ++
      [octet ((if r.senderRole = .locomotive then 1 else 0) + (if r.target = 65535 then 2 else 0) + 4 * r.confirm.toNat +
         8 * r.fromHolder.toNat + 16 * r.crowdedSeen.toNat), r.callNumber, r.callType, octet r.length, octet r.buffers.length,
       octet handle.val] ++
      (r.buffers.map (fun b : BufferNumber => octet b.val) ++ List.replicate 8 0xFF).take 8 ++ octetsOf r.firstStamp ++
      octetsOf r.lastStamp ++ [r.verdict.toByte] := by
  have hhandle : bufferOctet (handleOf r.buffers) = octet handle.val := by simp [bufferOctet, handleOf, h]
  rw [CallRecord.octets, marks_eq_octet, Role.bit_toNat, two_mul_decide_toNat, hhandle]
  simp only [List.append_assoc, List.cons_append, List.nil_append]
  rfl

theorem takeCall_empty {s : State} (h : s.asu.rcq = []) : takeCall s = refuse .empty s := by rw [takeCall, h]

theorem takeCall_cons {s : State} {r : CallRecord} {rest : List CallRecord} (h : s.asu.rcq = r :: rest) :
    takeCall s = accept (r.octets ++ callData r s)
      { s with asu.rcq := rest, bpl.held := s.bpl.held ++ [{ handle := handleOf r.buffers, buffers := r.buffers }] } := by
  rw [takeCall, h]

theorem releaseCall_notHeld {handle : Byte} {s : State} (h : ∀ x ∈ s.bpl.held, x.handle.val ≠ handle.toNat) :
    releaseCall handle s = refuse .notHeld s := by
  have hfind : s.bpl.held.find? (namesHeld handle) = none := by simpa [namesHeld] using h
  rw [releaseCall, hfind]

/-- The first held call that the handle names leaves the list; those before and behind it stay. -/
theorem releaseCall_held {handle : Byte} {s : State} {before after : List HeldCall} {h : HeldCall}
    (hheld : s.bpl.held = before ++ h :: after) (hnamed : h.handle.val = handle.toNat)
    (hbefore : ∀ x ∈ before, x.handle.val ≠ handle.toNat) :
    releaseCall handle s = accept [] { s with bpl.held := before ++ after, bpl.free := s.bpl.free ++ h.buffers } := by
  have hyes : namesHeld handle h = true := by simpa [namesHeld] using hnamed
  have hno : ∀ x ∈ before, ¬ namesHeld handle x = true := by simpa [namesHeld] using hbefore
  have hfind : s.bpl.held.find? (namesHeld handle) = some h :=
    List.find?_eq_some_iff_append.mpr ⟨hyes, before, after, hheld, by simpa using hno⟩
  have herase : s.bpl.held.eraseP (namesHeld handle) = before ++ after := by
    rw [hheld, List.eraseP_append_right _ hno, List.eraseP_cons_of_pos hyes]
  rw [releaseCall, hfind]
  simp only [herase]
  rfl

theorem takeResult_empty {s : State} (h : s.odu.rsq = []) : takeResult s = refuse .empty s := by rw [takeResult, h]

theorem takeResult_cons {s : State} {r : ResultRecord} {rest : List ResultRecord} (h : s.odu.rsq = r :: rest) :
    takeResult s = accept r.octets (moveHeldResult { s with odu.rsq := rest }) := by rw [takeResult, h]

theorem moveHeldResult_none {s : State} (h : s.odu.finishedSlots = []) : moveHeldResult s = s := by rw [moveHeldResult, h]

theorem moveHeldResult_some {s : State} {slot : Nat} {later : List Nat} {o : Order} (h : s.odu.finishedSlots = slot :: later)
    (ho : orderAt slot s = some o) : moveHeldResult s =
      { s with
        odu.rsq := s.odu.rsq ++ [resultOf slot o]
        odu.finishedSlots := later
        odu.ool := s.odu.ool.set slot none } := by
  have hsame : orderAt slot { s with odu.finishedSlots := later } = some o := ho
  simp only [moveHeldResult, h, hsame]
  rfl

theorem ResultRecord.octets_eq (r : ResultRecord) : r.octets =
    [octet r.slot, r.callNumber, r.callType] ++ octetsOf r.target ++ [r.outcome.toByte, octet r.attempts, octet r.answered.length] ++
      octetsOf r.finishStamp ++ r.answered.flatMap (fun m => octetsOf m.1 ++ [m.2.toByte]) := rfl

/-! ### The statements -/

/-- Settles O18: by whether a live order of the number takes the read-back; the one it answers is the one found, as call numbers
differ, and it ends or waits on by its members' answers. -/
theorem readbacksMatchOrStray : Obligations.ReadbacksMatchOrStray := by
  intro b s
  constructor
  · rintro (hnone | hverdict)
    · refine readbackArrived_unmatched fun i o ho hlive => ?_
      obtain ⟨hnumber, hunfinished⟩ := liveWith_iff.mp hlive
      rcases hnone i o ho hnumber with hfinished | hdigest | hanswered
      · exact absurd hfinished hunfinished
      · simp [hdigest]
      · simpa [unansweredMember] using fun m hm hs hnone => absurd hnone (hanswered m hm hs)
    · exact readbackArrived_badVerdict s hverdict
  · rintro hnumbers i o v ho hnumber hunfinished hdigest hmember hv members rfl marked rfl
    have hmatched := readbackArrived_matched hnumbers ho (liveWith_iff.mpr ⟨hnumber, hunfinished⟩) hdigest
      (unansweredMember_iff.mpr hmember) hv
    rw [hmatched]
    refine ⟨memberAnswered_waiting s, fun hall => ?_⟩
    have hmembers : markAnswered b.sender v o.members ≠ [] := by
      obtain ⟨m, hm, -⟩ := hmember
      simpa [markAnswered] using List.ne_nil_of_mem hm
    exact ⟨fun hdone => memberAnswered_last s hall (answersOutcome_done hdone),
      fun hrefused => memberAnswered_last s hall (answersOutcome_refused hmembers hrefused),
      fun haccepted hrefused => memberAnswered_last s hall (answersOutcome_partial haccepted hrefused)⟩

/-- Settles O31: the tests of R144 outside RUNNING, and in RUNNING those of R87 one after another, each where those before it pass. -/
theorem submissionIsTestedInOrder : Obligations.SubmissionIsTestedInOrder := by
  rintro f s sub rfl refused hrefused
  refine ⟨fun h => (hrefused _).mpr (answerFrame_outsideRunning _ h (by decide) (by decide)), fun hpasses hrun => ?_⟩
  have hcode {answer : ReplyCode} (h : submissionRefusal (readSubmission f.params) s = some answer) : refused answer :=
    (hrefused answer).mpr (answerFrame_refused hpasses (submitOrder_of_refusal h))
  refine ⟨fun h => hcode (submissionRefusal_notAttached hrun h), fun hattached hstays => ?_⟩
  refine ⟨fun htype => hcode (submissionRefusal_badType hrun hattached hstays htype), fun t htype permitted fits hpermitted hfits => ?_⟩
  rw [← submissionPermitted_iff] at hpermitted
  rw [← submissionLengthFits_iff] at hfits
  rw [hpermitted, hfits, Bool.not_eq_true, Bool.not_eq_true]
  refine ⟨fun h => hcode (submissionRefusal_notPermitted hrun hattached hstays htype h),
    fun hp h => hcode (submissionRefusal_badLength hrun hattached hstays htype hp h), fun hp hl => ?_⟩
  have hrest := submissionRefusal_of_fits hrun hattached hstays htype hp hl
  refine ⟨fun htarget => hcode ?badTarget, fun htarget => ⟨fun hfull => hcode ?full, fun hslot hfew => hcode ?noBuffers⟩⟩
  case badTarget =>
    rw [hrest, if_pos]
    rcases htarget with hzero | ⟨hself, hteam⟩
    · rw [hzero]
      simp
    · exact not_or_intro hteam fun hother => hother.2 hself
  case full => rw [hrest, if_neg (not_not_intro htarget), if_pos fun hmem => hfull none hmem rfl]
  case noBuffers => rw [hrest, if_neg (not_not_intro htarget), if_neg (not_not_intro hslot), if_pos hfew]

/-- Settles O23: the report reaches the order in the state with the register empty and the presence count at 0, and the attempt goes
on, ends or waits by R93. -/
theorem fragmentCompletionAdvancesOrEndsTheAttempt : Obligations.FragmentCompletionAdvancesOrEndsTheAttempt := by
  rintro slot index burst s hrun haccess hsamples honAir silent hsilent
  have hexec : exec .onAirCompletion s = .next (settle (leaveOnAir (fragmentCompleted slot index silent))) := by
    rw [exec_onAirCompletion_of_due hrun haccess hsamples honAir, hsilent]
    rfl
  have horders : silent.odu = s.odu := by rw [hsilent]
  have hconfig : silent.config = s.config := by rw [hsilent]; rfl
  have horder : orderAt slot silent = orderAt slot s := by rw [orderAt, orderAt, horders]
  refine ⟨fun o ho hstate hplace hnext placed hplaced => ?fits, fun hignored => ?ignored⟩
  case ignored => rw [hexec, fragmentCompleted_ignored (horder ▸ hignored)]
  case fits =>
    have ho' : orderAt slot silent = some o := horder.trans ho
    have hreport : o.state = .sending ∧ o.place = .onAir ∧ o.next = index := ⟨hstate, hplace, hnext⟩
    have hset (p : Order) : placed p = setSlot slot (some p) silent := by rw [hplaced, setSlot, horders]
    simp only [hexec, hset]
    refine ⟨fun hcancel => ?_, fun hgoes hmore => ?_, fun hgoes hlast => ?_⟩
    · rw [fragmentCompleted_cancelPending ho' hreport hcancel]
    · rw [fragmentCompleted_notLast ho' hreport hgoes hmore]
    · rw [fragmentCompleted_last ho' hreport hgoes hlast]
      refine ⟨fun hconfirm => ?_, fun hconfirm hnobody => ?_, fun hconfirm hmembers hall => ?_, fun hconfirm hwaits => ?_⟩
      · rw [endAttempt_noConfirm (o := { o with place := .none }) _ hconfirm]
      · rw [endAttempt_noPeers (o := { o with place := .none }) _ hconfirm hnobody]
      · rw [endAttempt_answered (o := { o with place := .none }) _ hconfirm hmembers hall]
      · rw [endAttempt_waits (o := { o with place := .none }) _ hconfirm hwaits, setSlot_setSlot,
          config_of_cfl (setSlot_cfl _ _ _), hconfig, readbackWait, readbackBase_eq]

/-- Settles O34: R94 by the attempt limit, and at it by whether a member has answered. -/
theorem readbackWaitExpiryRetriesOrFinishes : Obligations.ReadbackWaitExpiryRetriesOrFinishes := by
  intro slot o s hrun ho hstate hwait
  rw [exec_readbackWaitExpiry_of_due hrun ho hstate hwait]
  refine ⟨fun hretries => ?_, fun hlimit => ?_⟩
  · rw [waitExpired_retries ho hretries]
    rfl
  · rw [waitExpired_finishes ho hlimit]
    refine ⟨fun hnone => ?_, fun hone => ?_⟩
    · rw [if_neg (by simpa [anyAnswered_iff] using hnone)]
    · rw [if_pos (anyAnswered_iff.mpr hone)]

/-- Settles O36: R98's refusals in order, then R99 by where the order's fragment is. -/
theorem cancelOrderActsByState : Obligations.CancelOrderActsByState := by
  intro f slot s
  refine ⟨fun h => answerFrame_outsideRunning _ h (by decide) (by decide), ?_⟩
  rintro hpasses rfl
  refine ⟨fun hslot => answerFrame_refused hpasses (cancelInSlot_badRange s hslot), fun hslot => ?_⟩
  refine ⟨fun ho => answerFrame_refused hpasses (cancelInSlot_notHeld hslot ho), fun o ho => ?_⟩
  refine ⟨fun hbusy => answerFrame_refused hpasses (cancelInSlot_busy hslot ho hbusy),
    fun hstate hpending hplace => answerFrame_accepted hpasses ?onAir, fun hstate => answerFrame_accepted hpasses ?atOnce⟩
  case onAir =>
    rw [cancelInSlot_accepted hslot ho (by simp [hstate, hpending]), cancelOrder_onAir s hstate hplace]
    rfl
  case atOnce =>
    have hfree : ¬ (o.state = .finished ∨ o.state = .sending ∧ o.cancelPending = true) := by
      rcases hstate with h | h | ⟨h, hpending, -⟩ <;> simp [*]
    have hground : ¬ (o.state = .sending ∧ o.place = .onAir) := by
      rcases hstate with h | h | ⟨-, -, hplace⟩ <;> simp [*]
    rw [cancelInSlot_accepted hslot ho hfree, cancelOrder_finishes s hground]

/-- Settles O37: each command by what its queue or list holds; the layouts are the records' own octets. -/
theorem callsAndResultsAreTaken : Obligations.CallsAndResultsAreTaken := by
  refine ⟨fun f s code hcode => ⟨?takeCallOutside, ?releaseCallOutside, fun hpasses => ⟨?noCall, ?call⟩,
    fun hpasses handle hhandle => ⟨?notHeld, ?held⟩⟩,
    fun f s code hcode => ⟨?takeResultOutside, fun hpasses => ⟨?noResult, ?result⟩⟩⟩
  case takeCallOutside => exact fun h => answerFrame_outsideRunning _ h (by decide) (by decide)
  case releaseCallOutside => exact fun h => answerFrame_outsideRunning _ h (by decide) (by decide)
  case takeResultOutside => exact fun h => answerFrame_outsideRunning _ h (by decide) (by decide)
  case noCall => exact fun h => answerFrame_refused hpasses (takeCall_empty h)
  case call =>
    intro r rest handle more hrcq hbuffers
    refine answerFrame_accepted hpasses ?_
    rw [takeCall_cons hrcq, CallRecord.octets_eq hbuffers, hcode.trans Verdict.codes_eq_toByte, hbuffers]
    simp only [callData, hbuffers, handleOf, List.headD_cons]
  case notHeld =>
    subst hhandle
    exact fun h => answerFrame_refused hpasses (releaseCall_notHeld h)
  case held =>
    subst hhandle
    exact fun before h after hheld hnamed hbefore => answerFrame_accepted hpasses (releaseCall_held hheld hnamed hbefore)
  case noResult => exact fun h => answerFrame_refused hpasses (takeResult_empty h)
  case result =>
    rintro r rest outcomeCode octets hrsq houtcome hoctets
    have hlayout : octets = r.octets := by
      rw [hoctets, houtcome, hcode.trans Verdict.codes_eq_toByte, ← OrderOutcome.toByte_eq]
      exact (ResultRecord.octets_eq r).symm
    rw [hlayout]
    refine ⟨fun hnone => answerFrame_accepted hpasses ?_, fun slot later o outcome stamp hfinished ho houtcome hstamp =>
      answerFrame_accepted hpasses ?_⟩
    · rw [takeResult_cons hrsq, moveHeldResult_none (s := { s with odu.rsq := rest }) hnone]
    · have hresult : resultOf slot o =
          { slot := slot, callNumber := o.callNumber, callType := o.callType, target := o.target, outcome := outcome,
            attempts := o.attempts, answered := answeredMembers o.members, finishStamp := stamp } := by
        simp only [resultOf, houtcome, hstamp, Option.getD_some]
      rw [takeResult_cons hrsq, moveHeldResult_some (s := { s with odu.rsq := rest }) hfinished ho, hresult]
      rfl

end Sys2Proof.Machine
end

section
/-! PROOF. The calls that a locomotive acts on itself, STOP, RELEASE, HANDOVER_TAKE and RELINQUISH (07 sections 7.5 and 7.6): what each
does to the cause set and the control state, row by row, and the statement about their verdicts. -/

namespace Sys2Proof.Machine

/-! ### The cause set of a locomotive (R128, R129) -/

/-- R128 in one expression: where the given set is the old one, set and flag stay. -/
theorem setCauses_of_locomotive (c : Causes) {s : State} (h : isLocomotive s = true) :
    setCauses c s = { s with
      stu.causes := c
      tpt.flags.causesChanged := s.tpt.flags.causesChanged || decide (c ≠ s.stu.causes) } := by
  rcases setCauses_cases c s with ⟨-, hchange, hset⟩ | ⟨hportable | hsame, hset⟩
  · simp [hset, hchange]
  · simp [h] at hportable
  · subst hsame
    simp [hset]

theorem Causes.put_noHolder_ne (c : Causes) : decide ({ c with noHolder := true } ≠ c) = !c.noHolder := by
  cases c with
  | mk _ _ _ noHolder _ _ => cases noHolder <;> simp

theorem Causes.take_noHolder_ne (c : Causes) : decide ({ c with noHolder := false } ≠ c) = c.noHolder := by
  cases c with
  | mk _ _ _ noHolder _ _ => cases noHolder <;> simp

theorem releasedCauses_ne (c : Causes) : decide (releasedCauses c ≠ c) = (c.radioStop || c.allstop || c.supervision) := by
  cases c with
  | mk radioStop allstop supervision _ _ _ => simp [releasedCauses, Bool.or_assoc]

theorem putNoHolder_of_locomotive {s : State} (h : isLocomotive s = true) :
    putNoHolder s = { s with
      stu.causes.noHolder := true
      tpt.flags.causesChanged := s.tpt.flags.causesChanged || !s.stu.causes.noHolder } := by
  rw [putNoHolder, setCauses_of_locomotive _ h, Causes.put_noHolder_ne]

theorem takeNoHolder_of_locomotive {s : State} (h : isLocomotive s = true) :
    takeNoHolder s = { s with
      stu.causes.noHolder := false
      tpt.flags.causesChanged := s.tpt.flags.causesChanged || s.stu.causes.noHolder } := by
  rw [takeNoHolder, setCauses_of_locomotive _ h, Causes.take_noHolder_ne]

theorem releaseCauses_of_locomotive {s : State} (h : isLocomotive s = true) :
    releaseCauses s = { s with
      stu.causes := releasedCauses s.stu.causes
      tpt.flags.causesChanged := s.tpt.flags.causesChanged || s.stu.causes.radioStop || s.stu.causes.allstop ||
        s.stu.causes.supervision } := by
  rw [releaseCauses, ← releasedCauses, setCauses_of_locomotive _ h, releasedCauses_ne, Bool.or_assoc, Bool.or_assoc, Bool.or_assoc]

theorem makeUnheld_of_locomotive {s : State} (h : isLocomotive s = true) :
    makeUnheld s = { s with
      tmu.control := .unheld
      stu.causes.noHolder := true
      tpt.flags.causesChanged := s.tpt.flags.causesChanged || !s.stu.causes.noHolder } := by
  rw [makeUnheld, if_pos h]
  exact putNoHolder_of_locomotive (s := { s with tmu.control := .unheld }) h

/-! ### The verdict by the call type (R63) -/

section
variable (sender : Station) {s : State} (hloc : isLocomotive s = true)
include hloc

theorem decideVerdict_stop : decideVerdict sender 3 s = (.accepted, putRadioStop s) := if_pos hloc

theorem decideVerdict_release : decideVerdict sender 4 s =
    (releaseVerdict sender s, if releaseVerdict sender s = .accepted then releaseCauses s else s) := if_pos hloc

theorem decideVerdict_take : decideVerdict sender 6 s = takeVerdict sender s := if_pos hloc

theorem decideVerdict_relinquish : decideVerdict sender 7 s = relinquishVerdict sender s := if_pos hloc

end

/-! ### RELEASE (R120) -/

section
variable {sender : Station} {s : State}

theorem releaseVerdict_notHolder (h : s.tmu.control.holder ≠ some sender) : releaseVerdict sender s = .refusedNotHolder := by
  simp [releaseVerdict, isHolder, h]

theorem releaseVerdict_tooSoon (hholder : s.tmu.control.holder = some sender) (h : s.stu.hold = true) :
    releaseVerdict sender s = .refusedTooSoon := by
  simp [releaseVerdict, isHolder, hholder, h]

theorem releaseVerdict_accepted (hholder : s.tmu.control.holder = some sender) (h : s.stu.hold = false) :
    releaseVerdict sender s = .accepted := by
  simp [releaseVerdict, isHolder, hholder, h]

/-! ### RELINQUISH (R122) -/

theorem relinquishVerdict_holder (h : s.tmu.control.holder = some sender) :
    relinquishVerdict sender s = (.accepted, makeUnheld s) := if_pos (decide_eq_true h)

theorem relinquishVerdict_notHolder (h : s.tmu.control.holder ≠ some sender) :
    relinquishVerdict sender s = (.refusedNotHolder, s) := if_neg (by simpa [isHolder] using h)

/-! ### HANDOVER_TAKE (R121), a lemma per row -/

theorem takeVerdict_noEntry (h : findPeer sender s = none) : takeVerdict sender s = (.refusedNoRoom, s) := by
  rw [takeVerdict, h]

theorem takeVerdict_locomotive {p : Peer} (h : findPeer sender s = some p) (hrole : p.role = .locomotive) :
    takeVerdict sender s = (.refusedNoOffer, s) := by
  rw [takeVerdict, h]
  exact if_pos hrole

section
variable {p : Peer} (hpeer : findPeer sender s = some p) (hrole : p.role = .portable)
include hpeer hrole

theorem takeVerdict_unheld (h : s.tmu.control = .unheld) :
    takeVerdict sender s = (.accepted, takeNoHolder (makeHolder sender s)) := by
  simp [takeVerdict, hpeer, hrole, h]

/-- The holder keeps the control it has, an offer pending or not. -/
theorem takeVerdict_holder (h : s.tmu.control.holder = some sender) : takeVerdict sender s = (.accepted, s) := by
  cases hcontrol : s.tmu.control with
  | unheld => simp [hcontrol, Control.holder] at h
  | held holder =>
    have hsame : holder = sender := by simpa [hcontrol, Control.holder] using h
    simp [takeVerdict, hpeer, hrole, hcontrol, hsame]
  | offerPending holder offered stamp =>
    have hsame : holder = sender := by simpa [hcontrol, Control.holder] using h
    simp [takeVerdict, hpeer, hrole, hcontrol, hsame]

theorem takeVerdict_offered {holder : Station} {stamp : Stamp} (hother : holder ≠ sender)
    (h : s.tmu.control = .offerPending holder sender stamp) : takeVerdict sender s = (.accepted, makeHolder sender s) := by
  simp [takeVerdict, hpeer, hrole, h, hother]

theorem takeVerdict_heldByOther {holder : Station} (hother : holder ≠ sender) (h : s.tmu.control = .held holder) :
    takeVerdict sender s = (.refusedNoOffer, s) := by
  simp [takeVerdict, hpeer, hrole, h, hother]

theorem takeVerdict_otherOffered {holder offered : Station} {stamp : Stamp} (hother : holder ≠ sender) (hoffered : offered ≠ sender)
    (h : s.tmu.control = .offerPending holder offered stamp) : takeVerdict sender s = (.refusedNoOffer, s) := by
  simp [takeVerdict, hpeer, hrole, h, hother, hoffered]

end

end

/-! ### The statement -/

/-- Settles O15: on a locomotive each call goes to its verdict, and the verdict's rows are told apart by the sender's entry, the
control state and the release hold. -/
theorem controlPassesByItsVerdicts : Obligations.ControlPassesByItsVerdicts := by
  refine ⟨fun sender s => ⟨fun hloc => ⟨?stop, fun hother => ?releaseOther, fun hholder hhold => ?releaseHeld,
    fun hholder hhold => ?release⟩, fun hportable callType => decideVerdict_portable sender callType hportable⟩,
    fun sender s hloc => ⟨fun hnone => ?takeNoEntry, fun p hpeer hrole => ?takeLocomotive,
      fun p hpeer hrole => ⟨fun hcontrol => ?takeUnheld, fun hholder => ?takeHolder, fun holder stamp hother hcontrol => ?takeOffered,
        fun holder hother hcontrol => ?takeHeld, fun holder offered stamp hother hoffered hcontrol => ?takeNotOffered⟩,
      fun hholder => ?relinquish, fun hother => ?relinquishOther, decideVerdict_other sender s (by decide),
      not_partActed_of_type s (by decide)⟩⟩
  case stop => rw [decideVerdict_stop sender hloc, putRadioStop_of_locomotive hloc]
  case releaseOther => rw [decideVerdict_release sender hloc, releaseVerdict_notHolder hother, if_neg (by decide)]
  case releaseHeld => rw [decideVerdict_release sender hloc, releaseVerdict_tooSoon hholder hhold, if_neg (by decide)]
  case release =>
    rw [decideVerdict_release sender hloc, releaseVerdict_accepted hholder hhold, if_pos rfl, releaseCauses_of_locomotive hloc]
  case takeNoEntry => rw [decideVerdict_take sender hloc, takeVerdict_noEntry hnone]
  case takeLocomotive => rw [decideVerdict_take sender hloc, takeVerdict_locomotive hpeer hrole]
  case takeUnheld =>
    rw [decideVerdict_take sender hloc, takeVerdict_unheld hpeer hrole hcontrol,
      takeNoHolder_of_locomotive (s := makeHolder sender s) hloc]
    rfl
  case takeHolder => rw [decideVerdict_take sender hloc, takeVerdict_holder hpeer hrole hholder]
  case takeOffered =>
    rw [decideVerdict_take sender hloc, takeVerdict_offered hpeer hrole hother hcontrol]
    rfl
  case takeHeld => rw [decideVerdict_take sender hloc, takeVerdict_heldByOther hpeer hrole hother hcontrol]
  case takeNotOffered => rw [decideVerdict_take sender hloc, takeVerdict_otherOffered hpeer hrole hother hoffered hcontrol]
  case relinquish => rw [decideVerdict_relinquish sender hloc, relinquishVerdict_holder hholder, makeUnheld_of_locomotive hloc]
  case relinquishOther => rw [decideVerdict_relinquish sender hloc, relinquishVerdict_notHolder hother]

end Sys2Proof.Machine
end

section
/-! PROOF. The outputs follow the state after every command (08 section 8.2, R130): a command that is taken ends by bringing the pins
into line, and what is done without that, a frame's framing and its reply, is nothing that the pins look at. -/

namespace Sys2Proof.Machine

/-! ### What the pins look at -/

theorem pinsFollow_drivePins (s : State) : PinsFollow (drivePins s) := rfl

/-- The port and the queue are not looked at, nor is the time. -/
theorem PinsFollow.of_agree {s t : State} (h : PinsFollow s) (hpins : t.pins = s.pins) (hcfl : t.cfl = s.cfl) (hstu : t.stu = s.stu)
    (hmask : t.tpt.mask = s.tpt.mask) (hflags : t.tpt.flags = s.tpt.flags) (hrcq : t.asu.rcq = s.asu.rcq)
    (hexq : t.asu.exq = s.asu.exq) (hrsq : t.odu.rsq = s.odu.rsq) (honAir : t.cau.onAir = s.cau.onAir) : PinsFollow t :=
  calc t.pins
    _ = s.pins := hpins
    _ = (drivePins s).pins := h
    _ = (drivePins t).pins := (pins_of_agree hcfl (by rw [hstu]) hmask hflags hrcq hexq hrsq honAir).symm

theorem pinsFollow_withReply (code : Byte) (answer : ReplyCode) (data : List Byte) (s : State) (h : PinsFollow s) :
    PinsFollow (withReply code answer data s) := h.of_agree rfl rfl rfl rfl rfl rfl rfl rfl rfl

/-- A millisecond runs timers: the registers that the pins look at stay. -/
theorem pinsFollow_tick (s : State) (h : PinsFollow s) : PinsFollow (tick s) := by
  unfold tick
  dsimp only
  split
  · exact h.of_agree rfl rfl rfl rfl rfl rfl rfl rfl rfl
  · exact h.of_agree rfl rfl rfl rfl rfl rfl rfl rfl rfl

/-- R130's first sentence: where the pins follow, STOPD is what it says. -/
theorem PinsFollow.stopd_iff {s : State} (h : PinsFollow s) :
    s.pins.stopd = true ↔ s.cfl.part ≠ .running ∨ (s.config.role = .locomotive ∧ s.stu.causes ≠ {}) := by
  have hstopd : s.pins.stopd = stopdAsserted s := by rw [h]
  simp [hstopd, stopdAsserted, isLocomotive, Causes.isEmpty]

/-! ### Every command -/

/-- An event that is taken ends with the pins in line; one that is not leaves them as they were. -/
theorem pinsFollow_taken {p : Prop} {s effect t : State} (hnext : p ∧ t = drivePins effect ∨ ¬p ∧ t = s) (h : PinsFollow s) :
    PinsFollow t := taken_keeps hnext h fun _ => pinsFollow_drivePins effect

theorem pinsFollow_leaves {r : PortResult} {s effect : State} (hl : leaves r s effect) (h : PinsFollow s) : PinsFollow r.state := by
  rcases hl with ⟨hs, -⟩ | ⟨-, hs⟩
  · exact hs ▸ h
  · exact hs ▸ pinsFollow_drivePins effect

theorem pinsFollow_cancelInSlot (slot : Byte) {s : State} (h : PinsFollow s) : PinsFollow (cancelInSlot slot s).state := by
  rcases cancelInSlot_leaves slot s with ⟨heq, -⟩ | ⟨o, -, -, -, heq⟩
  · rwa [heq]
  · rw [heq]
    exact pinsFollow_drivePins _

theorem pinsFollow_takeCall {s : State} (h : PinsFollow s) : PinsFollow (takeCall s).state := by
  rcases takeCall_leaves s with ⟨heq, -⟩ | ⟨r, rest, -, heq⟩
  · exact heq ▸ h
  · exact heq ▸ pinsFollow_drivePins _

theorem pinsFollow_releaseCall (handle : Byte) {s : State} (h : PinsFollow s) : PinsFollow (releaseCall handle s).state := by
  rcases releaseCall_leaves handle s with ⟨heq, -⟩ | ⟨call, -, -, -, heq⟩
  · exact heq ▸ h
  · exact heq ▸ pinsFollow_drivePins _

theorem pinsFollow_submitOrder (sub : Submission) {s : State} (h : PinsFollow s) : PinsFollow (submitOrder sub s).state := by
  obtain ⟨slot, hl, -⟩ := submitOrder_leaves sub s
  exact pinsFollow_leaves hl h

theorem pinsFollow_sendAllstop (scope : Byte) {s : State} (h : PinsFollow s) : PinsFollow (sendAllstop scope s).state := by
  obtain ⟨team, hl⟩ := sendAllstop_leaves scope s
  exact pinsFollow_leaves hl h

theorem pinsFollow_restart (s : State) : PinsFollow (restart s).state := by
  unfold restart
  split
  · exact pinsFollow_drivePins _
  · exact pinsFollow_drivePins _

theorem pinsFollow_answerFrame {c : PortCommand} {f : Frame} {own : State → PortResult} {s t : State} (h : PinsFollow s)
    (hown : PinsFollow (own s).state) (hnext : answerFrame c f own s = .next t) : PinsFollow t :=
  answerFrame_keeps pinsFollow_withReply h hown hnext

theorem pinsFollow_exec (c : Instr) (s t : State) (h : PinsFollow s) (hnext : exec c s = .next t) : PinsFollow t := by
  cases c with
  | reset cause =>
    rcases execReset_next cause hnext with ⟨-, rfl⟩ | ⟨-, rfl⟩
    · exact pinsFollow_drivePins _
    · exact h
  | resetEnd => exact pinsFollow_taken (execResetEnd_next hnext) h
  | configOctetRead octet => exact pinsFollow_taken (execConfigOctetRead_next octet hnext) h
  | noMemory => exact pinsFollow_taken (execNoMemory_next hnext) h
  | burstSync => exact pinsFollow_taken (execBurstSync_next hnext) h
  | burstReceived octets =>
    rcases execBurstReceived_next hnext with ⟨stamp, -, -, rfl⟩ | ⟨-, rfl⟩
    · exact pinsFollow_drivePins _
    · exact h
  | shortBurst => exact pinsFollow_taken (execShortBurst_next hnext) h
  | levelSample level => exact pinsFollow_taken (execLevelSample_next level hnext) h
  | paceTimerExpiry => exact pinsFollow_taken (execPaceTimerExpiry_next hnext) h
  | gapComplete => exact pinsFollow_taken (execGapComplete_next hnext) h
  | slotComplete => exact pinsFollow_taken (execSlotComplete_next hnext) h
  | onAirCompletion => exact pinsFollow_taken (execOnAirCompletion_next hnext) h
  | forceTimerExpiry => exact pinsFollow_taken (execForceTimerExpiry_next hnext) h
  | readbackWaitExpiry slot => exact pinsFollow_taken (execReadbackWaitExpiry_next slot hnext) h
  | agingTimerExpiry => exact pinsFollow_taken (execAgingTimerExpiry_next hnext) h
  | silenceTimerExpiry => exact pinsFollow_taken (execSilenceTimerExpiry_next hnext) h
  | presenceTimerExpiry => exact pinsFollow_taken (execPresenceTimerExpiry_next hnext) h
  | offerTimerExpiry => exact pinsFollow_taken (execOfferTimerExpiry_next hnext) h
  | holdExpiry => exact pinsFollow_taken (execHoldExpiry_next hnext) h
  | emergencyKeyEdge =>
    rcases execEmergencyKeyEdge_next hnext with ⟨-, rfl⟩ | ⟨-, -, rfl⟩ | ⟨-, -, rfl⟩
    · exact h
    · exact pinsFollow_drivePins _
    · exact pinsFollow_drivePins _
  | emergencyKeyRelease =>
    rcases execEmergencyKeyRelease_next hnext with ⟨-, rfl⟩ | ⟨-, rfl⟩
    · exact pinsFollow_drivePins _
    · exact h
  | cabStopTransition active =>
    rcases execCabStopTransition_next hnext with ⟨-, rfl⟩ | ⟨-, -, rfl⟩ | ⟨-, -, rfl⟩
    · exact h
    · exact pinsFollow_drivePins _
    · exact pinsFollow_drivePins _
  | selectActive =>
    rcases execSelectActive_next hnext with ⟨-, rfl⟩ | ⟨-, rfl⟩
    · exact h.of_agree rfl rfl rfl rfl rfl rfl rfl rfl rfl
    · exact h
  | selectInactive =>
    rcases execSelectInactive_next hnext with ⟨-, rfl⟩ | ⟨-, rfl⟩
    · exact h.of_agree rfl rfl rfl rfl rfl rfl rfl rfl rfl
    · exact h
  | badCommand code f =>
    rcases execBadCommand_next hnext with ⟨-, rfl⟩ | ⟨-, rfl⟩
    · exact pinsFollow_withReply _ _ _ s h
    · exact h
  | readStatus f => exact pinsFollow_answerFrame h (pinsFollow_drivePins _) hnext
  | submitOrder f => exact pinsFollow_answerFrame h (pinsFollow_submitOrder _ h) hnext
  | cancelOrder f => exact pinsFollow_answerFrame h (pinsFollow_cancelInSlot _ h) hnext
  | takeCall f => exact pinsFollow_answerFrame h (pinsFollow_takeCall h) hnext
  | releaseCall f => exact pinsFollow_answerFrame h (pinsFollow_releaseCall _ h) hnext
  | takeException f => exact pinsFollow_answerFrame h (pinsFollow_leaves (takeException_leaves s) h) hnext
  | takeResult f => exact pinsFollow_answerFrame h (pinsFollow_leaves (takeResult_leaves s) h) hnext
  | readPeers f => exact pinsFollow_answerFrame h (pinsFollow_drivePins _) hnext
  | sendAllstop f => exact pinsFollow_answerFrame h (pinsFollow_sendAllstop _ h) hnext
  | stopRequest f => exact pinsFollow_answerFrame h (pinsFollow_drivePins _) hnext
  | clearTerminalStop f => exact pinsFollow_answerFrame h (pinsFollow_drivePins _) hnext
  | joinTeam f => exact pinsFollow_answerFrame h (pinsFollow_leaves (joinTeam_leaves _ s) h) hnext
  | leaveTeam f => exact pinsFollow_answerFrame h (pinsFollow_leaves (leaveTeam_leaves s) h) hnext
  | narrowRange f => exact pinsFollow_answerFrame h (pinsFollow_leaves (narrowRange_leaves _ _ s).1 h) hnext
  | readCounts f => exact pinsFollow_answerFrame h (pinsFollow_drivePins _) hnext
  | readAndClearCounts f => exact pinsFollow_answerFrame h (pinsFollow_drivePins _) hnext
  | setMask f => exact pinsFollow_answerFrame h (pinsFollow_leaves (setMask_leaves _ s) h) hnext
  | restart f => exact pinsFollow_answerFrame h (pinsFollow_restart s) hnext

/-- Settles O49: R130's sentence reads STOPD off pins that follow, and every step, idle or a command's, leaves pins that follow. -/
theorem outputsFollowEveryStep : Obligations.OutputsFollowEveryStep :=
  ⟨fun _ => PinsFollow.stopd_iff, fun _ _ h hstep => step_keeps (fun _ _ => id) pinsFollow_tick pinsFollow_exec h hstep⟩

end Sys2Proof.Machine
end

section
/-! PROOF. The all-stop series and the causes of the cab and the terminal processor (08 sections 8.4 and 8.5): how a series starts and
counts down, what a locomotive's CAB and TERMINAL follow, and the statements about the commands. -/

namespace Sys2Proof.Machine

/-! ### The series (R134 to R136) -/

/-- The two ways to keep the team, as one test. -/
theorem seriesTeamAfter_eq (team : Team) (s : State) :
    seriesTeamAfter team s = if s.stu.repeatCount = 0 ∨ s.stu.seriesTeam = some team then team else 0 := by
  unfold seriesTeamAfter
  by_cases hcount : s.stu.repeatCount = 0
  · rw [if_pos hcount, if_pos (.inl hcount)]
  · simp only [hcount, if_false, false_or]

theorem startSeries_eq {team series : Team} {s : State}
    (h : series = if s.stu.repeatCount = 0 ∨ s.stu.seriesTeam = some team then team else 0) :
    startSeries team s = requestAllstop series { s with stu.repeatCount := 3, stu.seriesTeam := some series } := by
  rw [h, ← seriesTeamAfter_eq]
  rfl

theorem allstopCompleted_idle {s : State} (h : s.stu.repeatCount = 0) : allstopCompleted s = s := if_pos h

theorem allstopCompleted_last {s : State} (h : s.stu.repeatCount = 1) :
    allstopCompleted s = { s with stu.repeatCount := 0, stu.seriesTeam := none } := by
  simp [allstopCompleted, h]

theorem allstopCompleted_again {s : State} {series : Team} (h : 2 ≤ s.stu.repeatCount) (hseries : s.stu.seriesTeam = some series) :
    allstopCompleted s = requestAllstop series { s with stu.repeatCount := s.stu.repeatCount - 1 } := by
  rw [allstopCompleted, if_neg (by omega), if_neg (by omega), hseries, Option.getD_some]

/-! ### The emergency key (R134) -/

theorem exec_emergencyKeyEdge_of_not_running {s : State} (hkey : s.stu.keyInput = false) (hpart : s.cfl.part ≠ .running) :
    exec .emergencyKeyEdge s = .next (drivePins { s with stu.keyInput := true }) := by
  change execEmergencyKeyEdge s = _
  simp [execEmergencyKeyEdge, hkey, running, hpart, taken]

theorem exec_emergencyKeyEdge_of_running {s : State} (hkey : s.stu.keyInput = false) (hpart : s.cfl.part = .running) :
    exec .emergencyKeyEdge s = .next (settle (startSeries (teamToStop s) { s with stu.keyInput := true })) := by
  change execEmergencyKeyEdge s = _
  simp [execEmergencyKeyEdge, hkey, running, hpart, takenAndArbitrated, taken, settle, teamToStop]

/-! ### SEND ALLSTOP (R136) -/

theorem sendAllstop_badRange {scope : Byte} (s : State) (hteam : scope ≠ 1) (hyard : scope ≠ 2) :
    sendAllstop scope s = refuse .badRange s := by
  rw [sendAllstop, if_neg hteam, if_neg hyard]

/-- Scope TEAM names the station's own team, scope YARD team 0. -/
theorem sendAllstop_accepted {scope : Byte} (s : State) (h : scope = 1 ∨ scope = 2) :
    sendAllstop scope s =
      accept [] (arbitrate (startSeries (if scope = 1 ∧ s.tmu.attached = true then s.tmu.homeTeam else 0) s)) := by
  rcases h with rfl | rfl
  · simp [sendAllstop, teamToStop]
  · simp [sendAllstop]

/-! ### CAB and TERMINAL (R138, R139) -/

theorem Causes.set_cab_ne (c : Causes) (active : Bool) : decide ({ c with cab := active } ≠ c) = (c.cab != active) := by
  cases c with
  | mk _ _ _ _ cab _ => cases cab <;> cases active <;> simp

theorem Causes.set_terminal_ne (c : Causes) (present : Bool) :
    decide ({ c with terminal := present } ≠ c) = (c.terminal != present) := by
  cases c with
  | mk _ _ _ _ _ terminal => cases terminal <;> cases present <;> simp

theorem setCauses_of_portable (c : Causes) {s : State} (h : isLocomotive s = false) : setCauses c s = s := by simp [setCauses, h]

theorem setCab_of_locomotive (active : Bool) {s : State} (h : isLocomotive s = true) :
    setCab active s = { s with
      stu.causes.cab := active
      tpt.flags.causesChanged := s.tpt.flags.causesChanged || (s.stu.causes.cab != active) } := by
  rw [setCab, setCauses_of_locomotive _ h, Causes.set_cab_ne]

/-- TERMINAL on either role (R139): a portable's set stays as it is. -/
theorem setTerminal_eq (present : Bool) (s : State) :
    setTerminal present s = if isLocomotive s then
      { s with
        stu.causes.terminal := present
        tpt.flags.causesChanged := s.tpt.flags.causesChanged || (s.stu.causes.terminal != present) } else s := by
  cases h : isLocomotive s with
  | true => rw [setTerminal, setCauses_of_locomotive _ h, Causes.set_terminal_ne, if_pos rfl]
  | false => rw [setTerminal, setCauses_of_portable _ h, if_neg Bool.false_ne_true]

theorem exec_cabStopTransition_of_change {active : Bool} {s : State} (h : s.stu.cabInput ≠ active) :
    exec (.cabStopTransition active) s = .next (drivePins
      (if running s then setCab active { s with stu.cabInput := active } else { s with stu.cabInput := active })) := if_neg h

/-! ### The statements -/

/-- Settles O24: the burst's owner is told first, and the count tells the three cases apart. -/
theorem allstopCompletionCountsTheSeriesDown : Obligations.AllstopCompletionCountsTheSeriesDown := by
  rintro team burst s hrun haccess hsamples hburst silent rfl
  rw [exec_onAirCompletion_of_due hrun haccess hsamples hburst]
  have hreport : reportCompletion (.allstop team) { s with cau.onAir := none } =
    allstopCompleted { s with cau.onAir := none, tmu.presenceCount := 0 } := rfl
  rw [hreport]
  refine ⟨fun hcount => ?idle, fun hcount => ?last, fun series hcount hseries => ?again⟩
  case idle => rw [allstopCompleted_idle (s := { s with cau.onAir := none, tmu.presenceCount := 0 }) hcount]
  case last => rw [allstopCompleted_last (s := { s with cau.onAir := none, tmu.presenceCount := 0 }) hcount]
  case again => rw [allstopCompleted_again (s := { s with cau.onAir := none, tmu.presenceCount := 0 }) hcount hseries]

/-- Settles O44: the key and the command differ in the team they name; what starts is the same series. -/
theorem keyAndCommandStartASeries : Obligations.KeyAndCommandStartASeries := by
  refine ⟨fun s => ⟨fun hkey => ⟨exec_emergencyKeyEdge_of_not_running hkey, fun hrun team series hteam hseries => ?edge⟩,
    fun hkey => if_pos hkey⟩, fun f s => ⟨fun houtside => ?outside, fun hpasses => ⟨fun hone htwo => ?badRange,
      fun hscope team series hteam hseries => ?accepted⟩⟩⟩
  case edge =>
    subst hteam
    rw [exec_emergencyKeyEdge_of_running hkey hrun, teamToStop, startSeries_eq (s := { s with stu.keyInput := true }) hseries]
  case outside => exact answerFrame_outsideRunning _ houtside (by decide) (by decide)
  case badRange => exact answerFrame_refused hpasses (sendAllstop_badRange s hone htwo)
  case accepted =>
    subst hteam
    rw [← startSeries_eq hseries]
    exact answerFrame_accepted hpasses (sendAllstop_accepted s hscope)

/-- Settles O45: each cause follows its own input, by R128 with the one cause written. -/
theorem localCausesFollowCabAndTerminal : Obligations.LocalCausesFollowCabAndTerminal := by
  refine fun active f s => ⟨fun hchange => ⟨fun hrun hloc => ?cab, fun hnot => ?notFollowed⟩, fun hpasses => ?request,
    fun hpasses => ?clear, fun houtside => ?requestOutside, fun houtside => ?clearOutside⟩
  case cab =>
    rw [exec_cabStopTransition_of_change hchange, running, decide_eq_true hrun, if_pos rfl,
      setCab_of_locomotive active (s := { s with stu.cabInput := active }) hloc]
  case notFollowed =>
    rw [exec_cabStopTransition_of_change hchange]
    rcases hnot with hpart | hportable
    · rw [running, decide_eq_false hpart, if_neg Bool.false_ne_true]
    · rw [setCab, setCauses_of_portable _ (s := { s with stu.cabInput := active }) hportable, ite_self]
  case request =>
    refine answerFrame_accepted hpasses (data := []) ?_
    rw [stopRequest, setTerminal_eq]
    simp only [Bool.bne_true]
  case clear =>
    refine answerFrame_accepted hpasses (data := []) ?_
    rw [clearTerminalStop, setTerminal_eq]
    simp only [Bool.bne_false]
  case requestOutside => exact answerFrame_outsideRunning _ houtside (by decide) (by decide)
  case clearOutside => exact answerFrame_outsideRunning _ houtside (by decide) (by decide)

end Sys2Proof.Machine
end

section
/-! PROOF. RADIO_STOP, ALLSTOP_CAUSE and SUPERVISION over every command (08 section 8.1, R129): every operation but an accepted
RELEASE leaves them in the set, and only the whole call of a good burst leads to that. -/

namespace Sys2Proof.Machine

/-! ### The three causes -/

/-- Each of R129's three causes that is in the first set is in the second. -/
def RadioKept (c d : Causes) : Prop :=
  (c.radioStop = true → d.radioStop = true) ∧ (c.allstop = true → d.allstop = true) ∧
    (c.supervision = true → d.supervision = true)

theorem RadioKept.refl (c : Causes) : RadioKept c c := ⟨id, id, id⟩

theorem RadioKept.trans {c d e : Causes} (h : RadioKept c d) (h' : RadioKept d e) : RadioKept c e := by
  obtain ⟨hradio, hallstop, hsupervision⟩ := h
  obtain ⟨hradio', hallstop', hsupervision'⟩ := h'
  exact ⟨hradio' ∘ hradio, hallstop' ∘ hallstop, hsupervision' ∘ hsupervision⟩

/-- The three causes read off the list of the statement. -/
theorem RadioKept.getD {c d : Causes} (h : RadioKept c d) (i : Nat) (hi : (radioCauses c).getD i false = true) :
    (radioCauses d).getD i false = true := by
  obtain ⟨hradio, hallstop, hsupervision⟩ := h
  match i with
  | 0 => exact hradio hi
  | 1 => exact hallstop hi
  | 2 => exact hsupervision hi
  | _ + 3 => cases hi

/-- The cause set of the state has R129's causes of the set c. -/
def KeepsStops (c : Causes) (s : State) : Prop := RadioKept c s.stu.causes

section
variable {c : Causes} {s : State}

theorem KeepsStops.of_causes {t : State} (h : KeepsStops c s) (hcauses : t.stu.causes = s.stu.causes) : KeepsStops c t := by
  rwa [KeepsStops, hcauses]

theorem keepsStops_setCauses {d : Causes} (h : KeepsStops c s) (hd : RadioKept s.stu.causes d) : KeepsStops c (setCauses d s) := by
  rw [KeepsStops, setCauses_causes]
  split
  · exact h.trans hd
  · exact h

theorem keepsStops_putRadioStop (h : KeepsStops c s) : KeepsStops c (putRadioStop s) :=
  keepsStops_setCauses h ⟨fun _ => rfl, id, id⟩

theorem keepsStops_putSupervision (h : KeepsStops c s) : KeepsStops c (putSupervision s) :=
  keepsStops_setCauses h ⟨id, id, fun _ => rfl⟩

theorem keepsStops_putNoHolder (h : KeepsStops c s) : KeepsStops c (putNoHolder s) := keepsStops_setCauses h ⟨id, id, id⟩

theorem keepsStops_takeNoHolder (h : KeepsStops c s) : KeepsStops c (takeNoHolder s) := keepsStops_setCauses h ⟨id, id, id⟩

theorem keepsStops_setCab (active : Bool) (h : KeepsStops c s) : KeepsStops c (setCab active s) :=
  keepsStops_setCauses h ⟨id, id, id⟩

theorem keepsStops_setTerminal (present : Bool) (h : KeepsStops c s) : KeepsStops c (setTerminal present s) :=
  keepsStops_setCauses h ⟨id, id, id⟩

theorem keepsStops_honourAllstop (stamp : Stamp) (h : KeepsStops c s) : KeepsStops c (honourAllstop stamp s) := by
  have hput : KeepsStops c (putAllstopCause s) := keepsStops_setCauses h ⟨id, fun _ => rfl, id⟩
  exact hput.of_causes rfl

theorem keepsStops_settle (h : KeepsStops c s) : KeepsStops c (settle s) := h.of_causes (by simp [settle])

/-! ### Team (R109, R110, R113, R115, R121, R122) -/

theorem keepsStops_makeUnheld (h : KeepsStops c s) : KeepsStops c (makeUnheld s) := by
  unfold makeUnheld
  split
  · exact keepsStops_putNoHolder (s := { s with tmu.control := .unheld }) h
  · exact h

theorem keepsStops_actOnFlag (b : Burst) (h : KeepsStops c s) : KeepsStops c (actOnFlag b s) := by
  unfold actOnFlag
  split
  · exact h
  · exact h.of_causes (by simp)
  · have hremoved : KeepsStops c (removePeer b.sender s) := h.of_causes (by simp)
    dsimp only
    split
    · exact keepsStops_makeUnheld hremoved
    · exact hremoved

theorem keepsStops_peerStep (b : Burst) (stamp : Stamp) (h : KeepsStops c s) : KeepsStops c (peerStep b stamp s) := by
  unfold peerStep
  split
  · exact keepsStops_actOnFlag b (h.of_causes (by simp))
  · split
    · exact h
    · exact keepsStops_actOnFlag b (h.of_causes (by simp))

theorem keepsStops_clearTeam (h : KeepsStops c s) : KeepsStops c (clearTeam s) := by
  have hunheld : KeepsStops c (makeUnheld { s with tmu.peers := [] }) := keepsStops_makeUnheld h
  exact hunheld.of_causes (by simp [clearTeam])

theorem keepsStops_joined (team : Team) (h : KeepsStops c s) : KeepsStops c (joined team s) := by
  have hcleared : KeepsStops c (clearTeam { s with tmu.leavePending := false }) := keepsStops_clearTeam h
  exact hcleared.of_causes (by simp [joined])

theorem keepsStops_presenceCompleted (flag : PresenceFlag) (h : KeepsStops c s) : KeepsStops c (presenceCompleted flag s) := by
  cases flag with
  | normal => exact h
  | joining => exact h
  | leaving =>
    unfold presenceCompleted
    dsimp only
    split
    · exact (keepsStops_clearTeam h).of_causes rfl
    · exact h

theorem keepsStops_silenceExpired (h : KeepsStops c s) : KeepsStops c (silenceExpired s) := by
  unfold silenceExpired
  dsimp only
  split
  · exact keepsStops_putSupervision (s := { s with tmu.peers := s.tmu.peers.map (silentPeer s.config) }) h
  · exact h

theorem keepsStops_takeVerdict (sender : Station) (h : KeepsStops c s) : KeepsStops c (takeVerdict sender s).2 := by
  unfold takeVerdict
  split
  · exact h
  · split
    · exact h
    · split
      · exact keepsStops_takeNoHolder (s := makeHolder sender s) h
      · split <;> exact h
      · split
        · exact h
        · split <;> exact h

theorem keepsStops_relinquishVerdict (sender : Station) (h : KeepsStops c s) : KeepsStops c (relinquishVerdict sender s).2 := by
  unfold relinquishVerdict
  split
  · exact keepsStops_makeUnheld h
  · exact h

theorem keepsStops_overheardCall (sender target : Station) (callType : Byte) (stamp : Stamp) (h : KeepsStops c s) :
    KeepsStops c (overheardCall sender target callType stamp s) := by
  unfold overheardCall
  split
  · split
    · exact h.of_causes (by simp)
    · split
      · exact keepsStops_putRadioStop h
      · exact h
    · exact h
  · exact h

/-! ### What the station sends (R40, R135) -/

theorem keepsStops_allstopCompleted (h : KeepsStops c s) : KeepsStops c (allstopCompleted s) := h.of_causes (by simp)

theorem keepsStops_onAirCompleted (h : KeepsStops c s) : KeepsStops c (onAirCompleted s) := by
  unfold onAirCompleted
  split
  · rename_i burst _
    suffices hreported : KeepsStops c (reportCompletion burst.source { s with cau.onAir := none }) from
      hreported.of_causes (by simp)
    cases burst.source with
    | allstop team => exact keepsStops_allstopCompleted (s := { s with cau.onAir := none, tmu.presenceCount := 0 }) h
    | readback => exact h
    | presence flag => exact keepsStops_presenceCompleted flag (s := { s with cau.onAir := none, tmu.presenceCount := 0 }) h
    | fragment slot index => exact h.of_causes (by simp [reportCompletion])
  · exact h

/-! ### A RELEASE (R120) and the call that carries it -/

/-- From s to t the sender's RELEASE has been accepted, and the set and the flag are what R129 and R128 say. -/
def Released (sender : Station) (s t : State) : Prop :=
  s.stu.hold = false ∧ s.tmu.control.holder = some sender ∧ t.stu.causes = releasedCauses s.stu.causes ∧
    t.tpt.flags.causesChanged = true

/-- From s to t R129's causes stay, or they end by the sender's RELEASE; the proposition says that its call is a RELEASE. -/
def StopsEndBy (release : Prop) (sender : Station) (s t : State) : Prop :=
  KeepsStops s.stu.causes t ∨ release ∧ Released sender s t

section
variable {release : Prop} {sender : Station} {t : State}

theorem StopsEndBy.mono {release' : Prop} (h : StopsEndBy release sender s t) (himp : release → release') :
    StopsEndBy release' sender s t := h.imp_right fun ⟨hrelease, hreleased⟩ => ⟨himp hrelease, hreleased⟩

/-- What came before changed nothing that a RELEASE looks at. -/
theorem StopsEndBy.before {earlier : State} (h : StopsEndBy release sender s t) (hstu : s.stu = earlier.stu)
    (hcontrol : s.tmu.control = earlier.tmu.control) : StopsEndBy release sender earlier t := by
  rwa [StopsEndBy, Released, hstu, hcontrol] at h

/-- What comes after changes neither the set nor its flag. -/
theorem StopsEndBy.after {later : State} (h : StopsEndBy release sender s t) (hcauses : later.stu.causes = t.stu.causes)
    (hchanged : later.tpt.flags.causesChanged = t.tpt.flags.causesChanged) : StopsEndBy release sender s later := by
  rwa [StopsEndBy, KeepsStops, Released, ← hcauses, ← hchanged] at h

theorem StopsEndBy.of_causes (h : t.stu.causes = s.stu.causes) : StopsEndBy release sender s t :=
  .inl (KeepsStops.of_causes (.refl _) h)

end

theorem releaseVerdict_eq_accepted_iff {sender : Station} :
    releaseVerdict sender s = .accepted ↔ s.tmu.control.holder = some sender ∧ s.stu.hold = false := by
  unfold releaseVerdict isHolder
  split <;> simp_all

/-- R120: an accepted RELEASE takes the three causes out, with CAUSES_CHANGED where one of them was in the set. -/
theorem release_stopsEndBy (sender : Station) (s : State) :
    StopsEndBy True sender s (if releaseVerdict sender s = .accepted then releaseCauses s else s) := by
  split
  case isFalse => exact .of_causes rfl
  case isTrue haccepted =>
    obtain ⟨hholder, hhold⟩ := releaseVerdict_eq_accepted_iff.mp haccepted
    rcases setCauses_cases (releasedCauses s.stu.causes) s with ⟨-, -, hset⟩ | ⟨-, hset⟩
    · exact .inr ⟨trivial, hhold, hholder, congrArg (·.stu.causes) hset, congrArg (·.tpt.flags.causesChanged) hset⟩
    · exact .of_causes (congrArg (·.stu.causes) hset)

/-- Of the verdicts of R63 only RELEASE's takes one of the three out. -/
theorem decideVerdict_stopsEndBy (sender : Station) (callType : Byte) (s : State) :
    StopsEndBy (callType = 4) sender s (decideVerdict sender callType s).2 := by
  have hkept : KeepsStops s.stu.causes s := .refl _
  unfold decideVerdict
  split
  · split
    · exact .inl hkept
    · exact .inl hkept
    · exact .inl (keepsStops_putRadioStop hkept)
    · rename_i htype
      obtain ⟨-, -, -, hrelease, -⟩ := CallType.ofByte_eq_some_iff callType
      exact (release_stopsEndBy sender s).mono fun _ => hrelease.mp htype
    · exact .inl (keepsStops_takeVerdict sender hkept)
    · exact .inl (keepsStops_relinquishVerdict sender hkept)
    · exact .inl hkept
  · exact .inl hkept

/-! ### Completion and delivery (R60 to R65) -/

@[simp] theorem raiseException_causesChanged (e : ExceptionEntry) (s : State) :
    (raiseException e s).tpt.flags.causesChanged = s.tpt.flags.causesChanged := by
  rcases raiseException_cases e s with ⟨-, heq⟩ | ⟨-, heq⟩ <;> rw [heq]

@[simp] theorem turnAway_causesChanged (i : Nat) (x : Context) (index : Nat) (stamp : Stamp) (s : State) :
    (turnAway i x index stamp s).tpt.flags.causesChanged = s.tpt.flags.causesChanged := by
  simp [turnAway]

theorem deliverPartActed_causesChanged (i : Nat) (x : Context) (d : Digest) (v : Verdict) (index : Nat) (stamp : Stamp) (s : State) :
    (deliverPartActed i x d v index stamp s).tpt.flags.causesChanged = s.tpt.flags.causesChanged := by
  unfold deliverPartActed
  dsimp only
  split
  · split <;> simp
  · simp

theorem deliverProcessorActed_causesChanged (i : Nat) (x : Context) (d : Digest) (v : Verdict) (index : Nat) (stamp : Stamp)
    (s : State) : (deliverProcessorActed i x d v index stamp s).tpt.flags.causesChanged = s.tpt.flags.causesChanged := by
  unfold deliverProcessorActed
  split
  · split <;> simp
  · simp

theorem completeNew_stopsEndBy (i : Nat) (x : Context) (d : Digest) (index : Nat) (stamp : Stamp) (s : State) :
    StopsEndBy (x.callType = 4) x.sender s (completeNew i x d index stamp s) := by
  have hdecided := decideVerdict_stopsEndBy x.sender x.callType s
  unfold completeNew
  dsimp only
  split
  · exact hdecided.after (by simp) (deliverPartActed_causesChanged ..)
  · exact hdecided.after (by simp) (deliverProcessorActed_causesChanged ..)

/-- A duplicate RELEASE takes nothing out (R62). -/
theorem keepsStops_completeDuplicate (i : Nat) (x : Context) (d : Digest) (v : Verdict) (h : KeepsStops c s) :
    KeepsStops c (completeDuplicate i x d v s) := by
  have hoffered : KeepsStops c (offerIfConfirm x d v (countDuplicate (abandon i x s))) := h.of_causes (by simp)
  unfold completeDuplicate
  dsimp only
  split
  · exact keepsStops_putRadioStop hoffered
  · exact hoffered

theorem completeCall_stopsEndBy (i : Nat) (x : Context) (index : Nat) (stamp : Stamp) (s : State) :
    StopsEndBy (x.callType = 4) x.sender s (completeCall i x index stamp s) := by
  unfold completeCall
  split
  · exact .of_causes (by simp)
  · dsimp only
    split
    · exact .inl (keepsStops_completeDuplicate i x _ _ (.refl _))
    · exact completeNew_stopsEndBy i x _ index stamp s

/-! ### Fragments (R55 to R58) -/

theorem startCall_stopsEndBy (b : Burst) (stamp : Stamp) (s : State) :
    StopsEndBy (octetAt b.body 0 = 4) b.sender s (startCall b stamp s) := by
  cases hempty : firstEmpty s.asu.contexts with
  | none =>
    rw [startCall_noContext hempty]
    exact .of_causes (by simp)
  | some i =>
    cases hfree : s.bpl.free with
    | nil =>
      rw [startCall_noBuffer hempty hfree]
      exact .of_causes (by simp)
    | cons buffer free =>
      rw [startCall_takesBuffer hempty hfree]
      split
      · exact .of_causes (by simp)
      · split
        · have hcompleted := completeCall_stopsEndBy i (contextFrom b buffer stamp) 0 stamp (takeBuffer buffer b.body s)
          exact hcompleted.before (by simp) (by simp)
        · exact .of_causes (by simp)

theorem fragmentZero_stopsEndBy (b : Burst) (stamp : Stamp) (s : State) :
    StopsEndBy (octetAt b.body 0 = 4) b.sender s (fragmentZero b stamp s) := by
  unfold fragmentZero
  split
  · split
    · exact .of_causes rfl
    · exact (startCall_stopsEndBy b stamp _).before (by simp) (by simp)
  · exact startCall_stopsEndBy b stamp s

theorem takeInOrder_stopsEndBy (i : Nat) (x : Context) (b : Burst) (index : Nat) (stamp : Stamp) (s : State) :
    StopsEndBy (x.callType = 4) x.sender s (takeInOrder i x b index stamp s) := by
  unfold takeInOrder
  split
  · exact .of_causes (by simp)
  · split
    · exact .of_causes (by simp)
    · rename_i buffer rest _
      dsimp only
      split
      · have hcompleted := completeCall_stopsEndBy i
          { x with buffers := x.buffers ++ [buffer], age := 0, crowdedSeen := x.crowdedSeen || b.crowded } index stamp
          (takeBuffer buffer b.body s)
        exact hcompleted.before (by simp) (by simp)
      · exact .of_causes (by simp)

/-- The call of a CALL burst is a RELEASE: fragment 0 says so, or the context that the burst goes to. -/
def IsRelease (b : Burst) (s : State) : Prop :=
  (b.index = 0 ∧ octetAt b.body 0 = 4) ∨ ∃ i x, contextFor b.sender b.callNumber s = some (i, x) ∧ x.callType = 4

theorem isRelease_of_asu {b : Burst} {t : State} (hasu : t.asu = s.asu) (h : IsRelease b t) : IsRelease b s := by
  rwa [IsRelease, contextFor, hasu] at h

theorem laterFragment_stopsEndBy (b : Burst) (index : Nat) (stamp : Stamp) (s : State) :
    StopsEndBy (IsRelease b s) b.sender s (laterFragment b index stamp s) := by
  unfold laterFragment
  split
  case h_1 => exact .of_causes rfl
  case h_2 i x hcontext =>
    obtain ⟨-, hsender, -⟩ := contextFor_some hcontext
    split
    · exact .of_causes rfl
    · split
      · exact .of_causes (by simp)
      · rw [← hsender]
        exact (takeInOrder_stopsEndBy i x b index stamp s).mono fun htype => .inr ⟨i, x, hcontext, htype⟩

theorem callArrived_stopsEndBy (b : Burst) (stamp : Stamp) (s : State) :
    StopsEndBy (IsRelease b s) b.sender s (callArrived b stamp s) := by
  unfold callArrived
  split
  · split
    case isTrue hindex => exact (fragmentZero_stopsEndBy b stamp s).mono fun htype => .inl ⟨hindex, htype⟩
    case isFalse => exact laterFragment_stopsEndBy b _ stamp s
  · split
    · exact .inl (keepsStops_overheardCall _ _ _ stamp (.refl _))
    · exact .of_causes rfl

/-! ### A burst received (R11 to R14) -/

/-- The presence flag of a CALL is handed as normal, so its sender's entry is all that the first step changes. -/
theorem peerStep_of_call {b : Burst} (stamp : Stamp) (s : State) (h : b.kind = .call) :
    (peerStep b stamp s).stu = s.stu ∧ (peerStep b stamp s).tmu.control = s.tmu.control := by
  have hflag : handedFlag b = .normal := by simp [handedFlag, h]
  have hact : ∀ t, actOnFlag b t = t := fun t => by simp [actOnFlag, hflag]
  unfold peerStep
  split <;> simp [hflag, hact]

theorem routeHomeBurst_peerStep_stopsEndBy (b : Burst) (stamp : Stamp) (s : State) :
    StopsEndBy (b.kind = .call ∧ IsRelease b s) b.sender s (routeHomeBurst b stamp (peerStep b stamp s)) := by
  have hpeer : KeepsStops s.stu.causes (peerStep b stamp s) := keepsStops_peerStep b stamp (.refl _)
  cases hkind : b.kind with
  | call =>
    obtain ⟨hstu, hcontrol⟩ := peerStep_of_call stamp s hkind
    rw [routeHomeBurst_call stamp _ hkind]
    exact ((callArrived_stopsEndBy b stamp _).before hstu hcontrol).mono fun h => ⟨rfl, isRelease_of_asu (by simp) h⟩
  | readback =>
    rw [routeHomeBurst_readback stamp _ hkind]
    split
    · exact .inl (hpeer.of_causes (by simp))
    · exact .inl hpeer
  | presence =>
    rw [routeHomeBurst_presence stamp _ hkind]
    exact .inl (hpeer.of_causes (by simp))
  | allstop =>
    rw [routeHomeBurst_allstop stamp _ hkind, ← honourAllstop_eq_heardAllstop]
    exact .inl (keepsStops_honourAllstop stamp hpeer)

theorem sortByTeam_stopsEndBy (b : Burst) (stamp : Stamp) (s : State) :
    StopsEndBy (b.kind = .call ∧ IsRelease b s) b.sender s (sortByTeam b stamp s) := by
  have hheard : KeepsStops s.stu.causes (honourAllstop stamp s) := keepsStops_honourAllstop stamp (.refl _)
  unfold sortByTeam
  split
  · split
    · exact .inl hheard
    · exact .of_causes rfl
  · split
    · exact routeHomeBurst_peerStep_stopsEndBy b stamp s
    · split
      · split
        · exact .inl hheard
        · exact .of_causes rfl
      · exact .of_causes rfl

theorem goodBurst_stopsEndBy (b : Burst) (stamp : Stamp) (s : State) :
    StopsEndBy (b.kind = .call ∧ IsRelease b s) b.sender s (goodBurst b stamp s) := by
  unfold goodBurst
  dsimp only
  split
  · exact .of_causes rfl
  · split
    · exact .of_causes rfl
    · split
      · exact (sortByTeam_stopsEndBy b stamp { countGood s with cau.crowdedHeard := true }).before rfl rfl
      · exact (sortByTeam_stopsEndBy b stamp (countGood s)).before rfl rfl

theorem classify_stopsEndBy (octets : List Byte) (stamp : Stamp) (s : State) :
    StopsEndBy (crcGood octets = true ∧ (readBurst octets).kind = .call ∧ IsRelease (readBurst octets) s)
      (readBurst octets).sender s (classify octets stamp s) := by
  unfold classify
  dsimp only
  split
  case isTrue hgood =>
    have hsorted := goodBurst_stopsEndBy (readBurst octets) stamp { s with rxc.reception := none }
    exact (hsorted.before rfl rfl).mono fun h => ⟨hgood, h⟩
  case isFalse =>
    unfold failedBurst
    split
    · exact .inl (keepsStops_honourAllstop stamp (s := { s with rxc.reception := none }) (.refl _))
    · exact .of_causes rfl

theorem execBurstReceived_stopsEndBy {octets : List Byte} {s t : State} (hnext : execBurstReceived octets s = .next t) :
    StopsEndBy (crcGood octets = true ∧ (readBurst octets).kind = .call ∧ IsRelease (readBurst octets) s)
      (readBurst octets).sender s t := by
  rcases execBurstReceived_next hnext with ⟨stamp, -, -, rfl⟩ | ⟨-, rfl⟩
  · exact (classify_stopsEndBy octets stamp s).after (by simp) (by simp)
  · exact .of_causes rfl

/-! ### Every other command -/

theorem keepsStops_restart (hrun : running s = true) (h : KeepsStops c s) : KeepsStops c (restart s).state := by
  suffices hrestarted : KeepsStops c (restartRunning s) by
    rw [restart, if_pos hrun]
    exact keepsStops_settle hrestarted
  have hformed : KeepsStops c (if isLocomotive s then putNoHolder s else s) := by
    split
    · exact keepsStops_putNoHolder h
    · exact h
  exact hformed.of_causes rfl

theorem keepsStops_answerFrame {p : PortCommand} {f : Frame} {own : State → PortResult} {t : State} (h : KeepsStops c s)
    (hown : KeepsStops c (own s).state) (hnext : answerFrame p f own s = .next t) : KeepsStops c t :=
  answerFrame_keeps (fun _ _ _ _ h => h) h hown hnext

theorem keepsStops_leaves {r : PortResult} {effect : State} (hl : leaves r s effect) (h : KeepsStops c s)
    (heffect : KeepsStops c effect) : KeepsStops c r.state := leaves_keeps (fun _ h => h) hl h heffect

theorem keepsStops_submitOrder (sub : Submission) (h : KeepsStops c s) : KeepsStops c (submitOrder sub s).state := by
  obtain ⟨slot, hl, -⟩ := submitOrder_leaves sub s
  exact keepsStops_leaves hl h (h.of_causes (by simp))

theorem keepsStops_cancelInSlot (slot : Byte) (h : KeepsStops c s) : KeepsStops c (cancelInSlot slot s).state := by
  rcases cancelInSlot_leaves slot s with ⟨heq, -⟩ | ⟨o, -, -, -, heq⟩
  · rwa [heq]
  · exact h.of_causes (by simp [heq])

theorem keepsStops_takeCall (h : KeepsStops c s) : KeepsStops c (takeCall s).state := by
  rcases takeCall_leaves s with ⟨heq, -⟩ | ⟨r, rest, -, heq⟩
  · exact heq ▸ h
  · exact heq ▸ h

theorem keepsStops_releaseCall (handle : Byte) (h : KeepsStops c s) : KeepsStops c (releaseCall handle s).state := by
  rcases releaseCall_leaves handle s with ⟨heq, -⟩ | ⟨call, -, -, -, heq⟩
  · exact heq ▸ h
  · exact heq ▸ h

theorem keepsStops_sendAllstop (scope : Byte) (h : KeepsStops c s) : KeepsStops c (sendAllstop scope s).state := by
  obtain ⟨team, hl⟩ := sendAllstop_leaves scope s
  exact keepsStops_leaves hl h (h.of_causes (by simp))

/-- A load is under way only in CONFIGURING (R157). -/
theorem not_loading_of_running (h : running s = true) : ¬ loading s = true := by
  have hpart : s.cfl.part = .running := of_decide_eq_true h
  simp [loading, hpart]

theorem keepsStops_exec {i : Instr} {t : State} (hrun : running s = true) (hreset : ∀ cause, i ≠ .reset cause)
    (hburst : ∀ octets, i ≠ .burstReceived octets) (h : KeepsStops c s) (hnext : exec i s = .next t) : KeepsStops c t := by
  cases i with
  | reset cause => exact absurd rfl (hreset cause)
  | burstReceived octets => exact absurd rfl (hburst octets)
  | resetEnd =>
    have hpart : s.cfl.part = .running := of_decide_eq_true hrun
    exact taken_keeps (execResetEnd_next hnext) h (fun hheld => by simp [hpart] at hheld)
  | configOctetRead octet =>
    exact taken_keeps (execConfigOctetRead_next octet hnext) h (fun hloading => absurd hloading (not_loading_of_running hrun))
  | noMemory => exact taken_keeps (execNoMemory_next hnext) h (fun hloading => absurd hloading (not_loading_of_running hrun))
  | burstSync => exact taken_keeps (execBurstSync_next hnext) h (fun _ => h.of_causes (by simp))
  | shortBurst => exact taken_keeps (execShortBurst_next hnext) h (fun _ => h)
  | levelSample level => exact taken_keeps (execLevelSample_next level hnext) h (fun _ => h)
  | paceTimerExpiry => exact taken_keeps (execPaceTimerExpiry_next hnext) h (fun _ => h.of_causes (by simp))
  | gapComplete => exact taken_keeps (execGapComplete_next hnext) h (fun _ => h.of_causes (by simp))
  | slotComplete => exact taken_keeps (execSlotComplete_next hnext) h (fun _ => h.of_causes (by simp))
  | onAirCompletion =>
    exact taken_keeps (execOnAirCompletion_next hnext) h (fun _ => keepsStops_settle (keepsStops_onAirCompleted h))
  | forceTimerExpiry => exact taken_keeps (execForceTimerExpiry_next hnext) h (fun _ => h.of_causes (by simp))
  | readbackWaitExpiry slot => exact taken_keeps (execReadbackWaitExpiry_next slot hnext) h (fun _ => h.of_causes (by simp))
  | agingTimerExpiry =>
    have hframe := ageContexts_frame { s with asu.agingMs := s.asu.agingMs - 100 }
    exact taken_keeps (execAgingTimerExpiry_next hnext) h (fun _ => h.of_causes (by simp [hframe]))
  | silenceTimerExpiry =>
    exact taken_keeps (execSilenceTimerExpiry_next hnext) h
      (fun _ => keepsStops_silenceExpired (s := { s with tmu.silenceMs := s.tmu.silenceMs - 100 }) h)
  | presenceTimerExpiry => exact taken_keeps (execPresenceTimerExpiry_next hnext) h (fun _ => h.of_causes (by simp))
  | offerTimerExpiry => exact taken_keeps (execOfferTimerExpiry_next hnext) h (fun _ => h.of_causes (by simp))
  | holdExpiry => exact taken_keeps (execHoldExpiry_next hnext) h (fun _ => h)
  | emergencyKeyEdge =>
    rcases execEmergencyKeyEdge_next hnext with ⟨-, rfl⟩ | ⟨-, -, rfl⟩ | ⟨-, -, rfl⟩
    · exact h
    · exact h
    · exact h.of_causes (by simp)
  | emergencyKeyRelease =>
    rcases execEmergencyKeyRelease_next hnext with ⟨-, rfl⟩ | ⟨-, rfl⟩
    · exact h
    · exact h
  | cabStopTransition active =>
    rcases execCabStopTransition_next hnext with ⟨-, rfl⟩ | ⟨-, -, rfl⟩ | ⟨-, -, rfl⟩
    · exact h
    · exact h
    · exact keepsStops_setCab active (s := { s with stu.cabInput := active }) h
  | selectActive =>
    rcases execSelectActive_next hnext with ⟨-, rfl⟩ | ⟨-, rfl⟩
    · exact h
    · exact h
  | selectInactive =>
    rcases execSelectInactive_next hnext with ⟨-, rfl⟩ | ⟨-, rfl⟩
    · exact h
    · exact h
  | badCommand code f =>
    rcases execBadCommand_next hnext with ⟨-, rfl⟩ | ⟨-, rfl⟩
    · exact h
    · exact h
  | readStatus f => exact keepsStops_answerFrame h h hnext
  | submitOrder f => exact keepsStops_answerFrame h (keepsStops_submitOrder _ h) hnext
  | cancelOrder f => exact keepsStops_answerFrame h (keepsStops_cancelInSlot _ h) hnext
  | takeCall f => exact keepsStops_answerFrame h (keepsStops_takeCall h) hnext
  | releaseCall f => exact keepsStops_answerFrame h (keepsStops_releaseCall _ h) hnext
  | takeException f => exact keepsStops_answerFrame h (keepsStops_leaves (takeException_leaves s) h h) hnext
  | takeResult f =>
    exact keepsStops_answerFrame h (keepsStops_leaves (takeResult_leaves s) h (h.of_causes (by simp))) hnext
  | readPeers f => exact keepsStops_answerFrame h h hnext
  | sendAllstop f => exact keepsStops_answerFrame h (keepsStops_sendAllstop _ h) hnext
  | stopRequest f => exact keepsStops_answerFrame h (keepsStops_setTerminal true h) hnext
  | clearTerminalStop f => exact keepsStops_answerFrame h (keepsStops_setTerminal false h) hnext
  | joinTeam f =>
    have hjoined : KeepsStops c (arbitrate (joined (octetAt f.params 0) s)) :=
      (keepsStops_joined (octetAt f.params 0) h).of_causes (by simp)
    exact keepsStops_answerFrame h (keepsStops_leaves (joinTeam_leaves _ s) h hjoined) hnext
  | leaveTeam f => exact keepsStops_answerFrame h (keepsStops_leaves (leaveTeam_leaves s) h (h.of_causes (by simp))) hnext
  | narrowRange f => exact keepsStops_answerFrame h (keepsStops_leaves (narrowRange_leaves _ _ s).1 h h) hnext
  | readCounts f => exact keepsStops_answerFrame h h hnext
  | readAndClearCounts f => exact keepsStops_answerFrame h h hnext
  | setMask f => exact keepsStops_answerFrame h (keepsStops_leaves (setMask_leaves _ s) h h) hnext
  | restart f => exact keepsStops_answerFrame h (keepsStops_restart hrun h) hnext

end

/-! ### The statement -/

/-- Settles O57: a command that is no burst keeps the causes, and a burst keeps them or carries the holder's RELEASE. -/
theorem radioStopsEndOnlyByReleaseOrReset : Obligations.RadioStopsEndOnlyByReleaseOrReset := by
  refine ⟨fun i s t hpart _ hreset hnext => ?event, fun sender s hloc hholder hhold => ?release⟩
  case event =>
    by_cases hburst : ∃ octets, i = .burstReceived octets
    · obtain ⟨octets, rfl⟩ := hburst
      rcases execBurstReceived_stopsEndBy hnext with hkept | ⟨⟨hgood, hcall, hrelease⟩, hhold, hholder, hcauses, hchanged⟩
      · exact .inl hkept.getD
      · exact .inr ⟨octets, rfl, hgood, hcall, hhold, hholder, hrelease, hcauses, hchanged⟩
    · have hkept : KeepsStops s.stu.causes t :=
        keepsStops_exec (decide_eq_true hpart) hreset (not_exists.mp hburst) (.refl _) hnext
      exact .inl hkept.getD
  case release =>
    rw [decideVerdict_release sender hloc, releaseVerdict_accepted hholder hhold, if_pos rfl, releaseCauses_of_locomotive hloc]
    rfl

end Sys2Proof.Machine
end

section
/-! PROOF. What an event can do, said once: every command leaves the state as it is, or has one of the effects below, after which the
send arbiter looks or does not. Every law that a step keeps is then a law that these effects keep. -/

namespace Sys2Proof.Machine

/-! ### The effects of the events -/

/-- The effects of the events after which the arbiter does not look. -/
inductive Quiet (s : State) : State → Prop
  | reset : Quiet s (resetTaken s)
  | load (h : s.cfl.part ≠ .running) : Quiet s (beginLoad s)
  | noMemory (h : loading s = true) : Quiet s (endLoadFault .noMemory s)
  | sync (h : running s = true) (ha : s.cau.access ≠ .onAir) : Quiet s (syncTaken s)
  | shortBurst (h : running s = true) : Quiet s (countCheckFailure { s with rxc.reception := none })
  | sample (level : Level) (h : running s = true) (hw : sampleWaits s = false) :
      Quiet s { s with cau := sampled s.config level s.rxc.reception.isSome s.cau }
  | aging (h : agingDue s = true) : Quiet s (ageContexts { s with asu.agingMs := s.asu.agingMs - 100 })
  | silence (h : silenceDue s = true) : Quiet s (silenceExpired { s with tmu.silenceMs := s.tmu.silenceMs - 100 })
  | offer (h : offerDue s = true) : Quiet s (offerLapsed s)
  | hold (h : holdDue s = true) : Quiet s { s with stu.hold := false }
  | key (pressed : Bool) : Quiet s { s with stu.keyInput := pressed }
  | cab (active : Bool) (h : running s = false) : Quiet s { s with stu.cabInput := active }
  | cabCause (active : Bool) (h : running s = true) : Quiet s (setCab active { s with stu.cabInput := active })
  | nothing : Quiet s s
  | flags : Quiet s { s with tpt.flags := {} }
  | mask (mask : Mask) (h : running s = true) : Quiet s { s with tpt.mask := mask }
  | counts (h : running s = true) : Quiet s { s with rxc.counts := {} }
  | takeCall (r : CallRecord) (rest : List CallRecord) (h : running s = true) (hr : s.asu.rcq = r :: rest) :
      Quiet s { s with asu.rcq := rest, bpl.held := s.bpl.held ++ [{ handle := handleOf r.buffers, buffers := r.buffers }] }
  | releaseCall (handle : Byte) (call : HeldCall) (h : running s = true) :
      Quiet s (returnBuffers call.buffers { s with bpl.held := s.bpl.held.eraseP (namesHeld handle) })
  | takeException (h : running s = true) : Quiet s { s with asu.exq := s.asu.exq.tail }
  | takeResult (r : ResultRecord) (rest : List ResultRecord) (h : running s = true) (hr : s.odu.rsq = r :: rest) :
      Quiet s (moveHeldResult { s with odu.rsq := rest })
  | terminal (present : Bool) (h : running s = true) : Quiet s (setTerminal present s)
  | range (low high : Team) (h : running s = true) : Quiet s { s with tpt.range := some (low, high) }

/-- The effects of the events after which the arbiter looks (log 5). -/
inductive Stirring (s : State) : State → Prop
  | octet (x : Byte) (h : loading s = true) : Stirring s (octetRead x s)
  | burst (octets : List Byte) (stamp : Stamp) (h : running s = true) : Stirring s (classify octets stamp s)
  | pace (h : paceDue s = true) : Stirring s { s with cau := paceExpired s.config s.cau }
  | gap (h : gapDue s = true) : Stirring s (gapCompleted s)
  | slot (h : slotDue s = true) : Stirring s (slotCompleted s)
  | completion (h : onAirDue s = true) : Stirring s (onAirCompleted s)
  | force (h : forceDue s = true) : Stirring s (forceExpired s)
  | wait (slot : Nat) (h : waitDue slot s = true) : Stirring s (waitExpired slot s)
  | presence (h : presenceDue s = true) : Stirring s (presenceExpired { s with tmu.presenceMs := s.tmu.presenceMs - 100 })
  | series (pressed : Bool) (team : Team) (h : running s = true) : Stirring s (startSeries team { s with stu.keyInput := pressed })
  | submit (slot : Nat) (sub : Submission) (h : running s = true) (hslot : firstEmpty s.odu.ool = some slot) :
      Stirring s (acceptOrder slot sub s)
  | cancel (slot : Nat) (o : Order) (h : running s = true) (ho : orderAt slot s = some o) (hf : o.state ≠ .finished) :
      Stirring s (cancelOrder slot o s)
  | join (team : Team) (h : running s = true) : Stirring s (joined team s)
  | leave (h : running s = true) : Stirring s (requestPresence .leaving { s with tmu.leavePending := true })
  | restart (h : running s = true) : Stirring s (restartRunning s)

/-- What a command leaves, but for the port's own state. -/
inductive After (s : State) : State → Prop
  | same : After s s
  | quiet {effect : State} (h : Quiet s effect) : After s (drivePins effect)
  | stirred {effect : State} (h : Stirring s effect) : After s (settle effect)

/-! ### Every command has one of the effects -/

theorem After.of_quiet {p : Prop} {s effect t : State} (h : p ∧ t = drivePins effect ∨ ¬p ∧ t = s) (hq : p → Quiet s effect) :
    After s t := by
  rcases h with ⟨hp, rfl⟩ | ⟨-, rfl⟩
  · exact .quiet (hq hp)
  · exact .same

theorem After.of_stirring {p : Prop} {s effect t : State} (h : p ∧ t = drivePins (arbitrate effect) ∨ ¬p ∧ t = s)
    (hs : p → Stirring s effect) : After s t := by
  rcases h with ⟨hp, rfl⟩ | ⟨-, rfl⟩
  · exact .stirred (hs hp)
  · exact .same

/-- An own rule that refuses or has its effect. -/
theorem After.of_leaves {r : PortResult} {s effect : State} (hl : leaves r s effect) (h : After s (drivePins effect)) :
    After s r.state := by
  rcases hl with ⟨hs, -⟩ | ⟨-, hs⟩
  · exact hs ▸ .same
  · exact hs ▸ h

theorem after_submitOrder (sub : Submission) {s : State} (hr : running s = true) : After s (submitOrder sub s).state := by
  unfold submitOrder
  split
  · rename_i slot _ hslot
    exact .stirred (.submit slot sub hr hslot)
  · exact .same
  · exact .same

theorem after_cancelInSlot (slot : Byte) {s : State} (hr : running s = true) : After s (cancelInSlot slot s).state := by
  rcases cancelInSlot_leaves slot s with ⟨heq, -⟩ | ⟨o, ho, hf, -, heq⟩
  · rw [heq]
    exact .same
  · rw [heq]
    exact .stirred (.cancel _ o hr ho hf)

theorem after_takeCall {s : State} (hr : running s = true) : After s (takeCall s).state := by
  rcases takeCall_leaves s with ⟨heq, -⟩ | ⟨r, rest, hq, heq⟩
  · exact heq ▸ .same
  · exact heq ▸ .quiet (.takeCall r rest hr hq)

theorem after_releaseCall (handle : Byte) {s : State} (hr : running s = true) : After s (releaseCall handle s).state := by
  rcases releaseCall_leaves handle s with ⟨heq, -⟩ | ⟨call, -, -, -, heq⟩
  · exact heq ▸ .same
  · exact heq ▸ .quiet (.releaseCall handle call hr)

theorem after_takeResult {s : State} (hr : running s = true) : After s (takeResult s).state := by
  unfold takeResult
  split
  · exact .same
  · rename_i r rest hq
    exact .quiet (.takeResult r rest hr hq)

theorem after_sendAllstop (scope : Byte) {s : State} (hr : running s = true) : After s (sendAllstop scope s).state := by
  obtain ⟨team, hl⟩ := sendAllstop_leaves scope s
  exact .of_leaves hl (.stirred (.series s.stu.keyInput team hr))

theorem after_restart (s : State) : After s (restart s).state := by
  unfold restart
  split
  · rename_i hr
    exact .stirred (.restart hr)
  · rename_i hr
    exact .quiet (.load (by simpa [running] using hr))

/-- A frame at the port, but for the reply: its command's own rule, in a part state that takes the command further. -/
theorem after_answerFrame {c : PortCommand} {f : Frame} {own : State → PortResult} {s t : State}
    (h : answerFrame c f own s = .next t) (hown : c.acceptedIn s.cfl.part = true → After s (own s).state) :
    ∃ u port, After s u ∧ t = { u with tpt.port := port } := by
  rcases answerFrame_next h with ⟨-, answer, -, rfl⟩ | ⟨-, hnone, rfl⟩ | ⟨-, rfl⟩
  · exact ⟨s, _, .same, rfl⟩
  · exact ⟨_, _, hown (frameRefusal_none hnone).2.1, rfl⟩
  · exact ⟨_, _, .same, rfl⟩

theorem running_of_acceptedIn {c : PortCommand} {s : State} (h : c.acceptedIn s.cfl.part = true) (hstatus : c ≠ .readStatus)
    (hrestart : c ≠ .restart) : running s = true := by
  cases hp : s.cfl.part with
  | running => simp [running, hp]
  | halted => simp [hp, PortCommand.acceptedIn, hstatus, hrestart] at h
  | configuring => simp [hp, PortCommand.acceptedIn, hstatus] at h

theorem after_answerFrame_running {c : PortCommand} {f : Frame} {own : State → PortResult} {s t : State}
    (h : answerFrame c f own s = .next t) (hstatus : c ≠ .readStatus) (hrestart : c ≠ .restart)
    (hown : running s = true → After s (own s).state) : ∃ u port, After s u ∧ t = { u with tpt.port := port } :=
  after_answerFrame h fun hacc => hown (running_of_acceptedIn hacc hstatus hrestart)

theorem after_burstReceived {octets : List Byte} {s t : State} (h : execBurstReceived octets s = .next t) : After s t := by
  rcases execBurstReceived_next h with ⟨stamp, hr, -, rfl⟩ | ⟨-, rfl⟩
  · exact .stirred (.burst octets stamp hr)
  · exact .same

theorem after_emergencyKeyEdge {s t : State} (h : execEmergencyKeyEdge s = .next t) : After s t := by
  rcases execEmergencyKeyEdge_next h with ⟨-, rfl⟩ | ⟨-, -, rfl⟩ | ⟨-, hr, rfl⟩
  · exact .same
  · exact .quiet (.key true)
  · exact .stirred (.series true _ hr)

theorem after_emergencyKeyRelease {s t : State} (h : execEmergencyKeyRelease s = .next t) : After s t := by
  rcases execEmergencyKeyRelease_next h with ⟨-, rfl⟩ | ⟨-, rfl⟩
  · exact .quiet (.key false)
  · exact .same

theorem after_cabStopTransition {active : Bool} {s t : State} (h : execCabStopTransition active s = .next t) : After s t := by
  rcases execCabStopTransition_next h with ⟨-, rfl⟩ | ⟨-, hr, rfl⟩ | ⟨-, hr, rfl⟩
  · exact .same
  · exact .quiet (.cab active hr)
  · exact .quiet (.cabCause active hr)

theorem after_reset {cause : ResetCause} {s t : State} (h : execReset cause s = .next t) : After s t := by
  rcases execReset_next cause h with ⟨-, rfl⟩ | ⟨-, rfl⟩
  · exact .quiet .reset
  · exact .same

/-- The events that are not the port's. -/
theorem After.outside_port {s t : State} (h : After s t) : ∃ u port, After s u ∧ t = { u with tpt.port := port } := ⟨t, _, h, rfl⟩

/-- Every command has one of the effects above, or none, and may change the port's own state. -/
theorem exec_after (c : Instr) {s t : State} (h : exec c s = .next t) : ∃ u port, After s u ∧ t = { u with tpt.port := port } := by
  cases c with
  | reset cause => exact (after_reset (cause := cause) h).outside_port
  | resetEnd => exact (After.of_quiet (execResetEnd_next h) fun hp => .load (by simp [hp.1])).outside_port
  | configOctetRead octet => exact (After.of_stirring (execConfigOctetRead_next octet h) (.octet octet)).outside_port
  | noMemory => exact (After.of_quiet (execNoMemory_next h) .noMemory).outside_port
  | burstSync => exact (After.of_quiet (execBurstSync_next h) fun hp => .sync hp.1 hp.2).outside_port
  | burstReceived octets => exact (after_burstReceived h).outside_port
  | shortBurst => exact (After.of_quiet (execShortBurst_next h) fun hp => .shortBurst hp.1).outside_port
  | levelSample level => exact (After.of_quiet (execLevelSample_next level h) fun hp => .sample level hp.1 hp.2).outside_port
  | paceTimerExpiry => exact (After.of_stirring (execPaceTimerExpiry_next h) .pace).outside_port
  | gapComplete => exact (After.of_stirring (execGapComplete_next h) .gap).outside_port
  | slotComplete => exact (After.of_stirring (execSlotComplete_next h) .slot).outside_port
  | onAirCompletion => exact (After.of_stirring (execOnAirCompletion_next h) .completion).outside_port
  | forceTimerExpiry => exact (After.of_stirring (execForceTimerExpiry_next h) .force).outside_port
  | readbackWaitExpiry slot => exact (After.of_stirring (execReadbackWaitExpiry_next slot h) (.wait slot.val)).outside_port
  | agingTimerExpiry => exact (After.of_quiet (execAgingTimerExpiry_next h) .aging).outside_port
  | silenceTimerExpiry => exact (After.of_quiet (execSilenceTimerExpiry_next h) .silence).outside_port
  | presenceTimerExpiry => exact (After.of_stirring (execPresenceTimerExpiry_next h) .presence).outside_port
  | offerTimerExpiry => exact (After.of_quiet (execOfferTimerExpiry_next h) .offer).outside_port
  | holdExpiry => exact (After.of_quiet (execHoldExpiry_next h) .hold).outside_port
  | emergencyKeyEdge => exact (after_emergencyKeyEdge h).outside_port
  | emergencyKeyRelease => exact (after_emergencyKeyRelease h).outside_port
  | cabStopTransition active => exact (after_cabStopTransition h).outside_port
  | selectActive =>
    rcases execSelectActive_next h with ⟨-, rfl⟩ | ⟨-, rfl⟩
    · exact ⟨s, _, .same, rfl⟩
    · exact After.same.outside_port
  | selectInactive =>
    rcases execSelectInactive_next h with ⟨-, rfl⟩ | ⟨-, rfl⟩
    · exact ⟨s, _, .same, rfl⟩
    · exact After.same.outside_port
  | badCommand code f =>
    rcases execBadCommand_next h with ⟨-, rfl⟩ | ⟨-, rfl⟩
    · exact ⟨s, _, .same, rfl⟩
    · exact After.same.outside_port
  | readStatus f => exact after_answerFrame h fun _ => .quiet .flags
  | restart f => exact after_answerFrame h fun _ => after_restart s
  | submitOrder f => exact after_answerFrame_running h nofun nofun (after_submitOrder _)
  | cancelOrder f => exact after_answerFrame_running h nofun nofun (after_cancelInSlot _)
  | takeCall f => exact after_answerFrame_running h nofun nofun after_takeCall
  | releaseCall f => exact after_answerFrame_running h nofun nofun (after_releaseCall _)
  | takeException f =>
    exact after_answerFrame_running h nofun nofun fun hr => .of_leaves (takeException_leaves s) (.quiet (.takeException hr))
  | takeResult f => exact after_answerFrame_running h nofun nofun after_takeResult
  | readPeers f => exact after_answerFrame_running h nofun nofun fun _ => .quiet .nothing
  | sendAllstop f => exact after_answerFrame_running h nofun nofun (after_sendAllstop _)
  | stopRequest f => exact after_answerFrame_running h nofun nofun fun hr => .quiet (.terminal true hr)
  | clearTerminalStop f => exact after_answerFrame_running h nofun nofun fun hr => .quiet (.terminal false hr)
  | joinTeam f => exact after_answerFrame_running h nofun nofun fun hr => .of_leaves (joinTeam_leaves _ s) (.stirred (.join _ hr))
  | leaveTeam f => exact after_answerFrame_running h nofun nofun fun hr => .of_leaves (leaveTeam_leaves s) (.stirred (.leave hr))
  | narrowRange f =>
    exact after_answerFrame_running h nofun nofun fun hr => .of_leaves (narrowRange_leaves _ _ s).1 (.quiet (.range _ _ hr))
  | readCounts f => exact after_answerFrame_running h nofun nofun fun _ => .quiet .nothing
  | readAndClearCounts f => exact after_answerFrame_running h nofun nofun fun hr => .quiet (.counts hr)
  | setMask f => exact after_answerFrame_running h nofun nofun fun hr => .of_leaves (setMask_leaves _ s) (.quiet (.mask _ hr))

/-! ### What every effect keeps, every step keeps -/

/-- A predicate that looks at neither the outputs, nor the port's state, nor the queue. -/
structure LooksInside (P : State → Prop) : Prop where
  pins : ∀ s, P s → P (drivePins s)
  port : ∀ s port, P s → P { s with tpt.port := port }
  queue : ∀ s rest, P s → P { s with pending := rest }

theorem exec_keeps {P : State → Prop} (hin : LooksInside P) {s : State} (hquiet : ∀ effect, Quiet s effect → P s → P effect)
    (hstirred : ∀ effect, Stirring s effect → P s → P (arbitrate effect)) (c : Instr) {t : State} (h : P s)
    (hnext : exec c s = .next t) : P t := by
  obtain ⟨u, port, hafter, rfl⟩ := exec_after c hnext
  refine hin.port u port ?_
  cases hafter with
  | same => exact h
  | quiet hq => exact hin.pins _ (hquiet _ hq h)
  | stirred hs => exact hin.pins _ (hstirred _ hs h)

/-- A step keeps what the passing of a millisecond and every effect keep. -/
theorem step_keeps_of_effects {P : State → Prop} (hin : LooksInside P) (htick : ∀ s, P s → P (tick s))
    (hquiet : ∀ s effect, Quiet s effect → P s → P effect)
    (hstirred : ∀ s effect, Stirring s effect → P s → P (arbitrate effect)) {s t : State} (h : P s) (hstep : step s = .next t) :
    P t :=
  step_keeps hin.queue htick (fun c s _ hs hnext => exec_keeps hin (hquiet s) (hstirred s) c hs hnext) h hstep

/-! ### What a burst received to its end can do (R11 to R14) -/

/-- The reception ended, with the counts and the note of a crowded mark that the burst leaves (R12, R15). -/
def heardState (rxc : Rxc) (crowdedHeard : Bool) (s : State) : State := { s with rxc := rxc, cau.crowdedHeard := crowdedHeard }

/-- A burst received to its end is counted and no more, sets OWN_NUMBER_HEARD, is honoured as an all-stop, or is taken for the home team
from another station. -/
theorem classify_cases (octets : List Byte) (stamp : Stamp) (s : State) : ∃ heard, (∃ rxc crowdedHeard, heard = heardState rxc crowdedHeard s) ∧
    (classify octets stamp s = heard ∨ classify octets stamp s = { heard with tpt.flags.ownNumberHeard := true } ∨
      classify octets stamp s = honourAllstop stamp heard ∨
      (crcGood octets = true ∧ (readBurst octets).sender ≠ s.config.station ∧
        classify octets stamp s = routeHomeBurst (readBurst octets) stamp (peerStep (readBurst octets) stamp heard))) := by
  unfold classify
  dsimp only
  split
  · rename_i hcrc
    unfold goodBurst
    dsimp only
    split
    · exact ⟨_, ⟨_, _, rfl⟩, .inr (.inl rfl)⟩
    · rename_i hsender
      split
      · exact ⟨_, ⟨_, _, rfl⟩, .inl rfl⟩
      · have hheard : ∃ crowdedHeard, (if (readBurst octets).crowded = true then
            { countGood { s with rxc.reception := none } with cau.crowdedHeard := true }
            else countGood { s with rxc.reception := none }) =
              heardState (countGood { s with rxc.reception := none }).rxc crowdedHeard s := by
          split
          · exact ⟨true, rfl⟩
          · exact ⟨s.cau.crowdedHeard, rfl⟩
        obtain ⟨crowdedHeard, hheard⟩ := hheard
        rw [hheard]
        unfold sortByTeam
        split
        · split
          · exact ⟨_, ⟨_, _, rfl⟩, .inr (.inr (.inl rfl))⟩
          · exact ⟨_, ⟨_, _, rfl⟩, .inl rfl⟩
        · split
          · exact ⟨_, ⟨_, _, rfl⟩, .inr (.inr (.inr ⟨hcrc, hsender, rfl⟩))⟩
          · split
            · split
              · exact ⟨_, ⟨_, _, rfl⟩, .inr (.inr (.inl rfl))⟩
              · exact ⟨_, ⟨_, _, rfl⟩, .inl rfl⟩
            · exact ⟨_, ⟨_, _, rfl⟩, .inl rfl⟩
  · unfold failedBurst
    split
    · exact ⟨_, ⟨_, _, rfl⟩, .inr (.inr (.inl rfl))⟩
    · exact ⟨_, ⟨_, _, rfl⟩, .inl rfl⟩

end Sys2Proof.Machine
end

section
/-! PROOF. Bursts as 32 octets (01 section 1.3 to 1.5, 12 section 12.1): a composed burst passes its CRC and reads back field by field, and
so do the bursts that a staging composes. -/

namespace Sys2Proof.Machine

/-! ### Octet order -/

@[simp] theorem ofOctets_highOctet_lowOctet (w : Word) : ofOctets (highOctet w) (lowOctet w) = w := by
  unfold ofOctets highOctet lowOctet
  ext i hi
  simp only [BitVec.getElem_append, BitVec.getElem_extractLsb']
  split
  · simp [BitVec.getLsbD_eq_getElem, hi]
  · have hsum : 8 + (i - 8) = i := by omega
    simp [hsum, BitVec.getLsbD_eq_getElem, hi]

theorem octetsOf_length (w : Word) : (octetsOf w).length = 2 := rfl

/-- A 16-bit quantity written behind a list of octets reads back there. -/
theorem wordAt_append_octetsOf {octets : List Byte} {n : Nat} (h : octets.length = n) (w : Word) (rest : List Byte) :
    wordAt (octets ++ (octetsOf w ++ rest)) n = w := by
  simp [wordAt, octetAt, octetsOf, ← h]

/-! ### The CRC (R7) -/

/-- 30 octets with their CRC behind them pass the check. -/
theorem crcGood_append_crc {covered : List Byte} (h : covered.length = 30) : crcGood (covered ++ octetsOf (crc covered)) = true := by
  have hword : wordAt (covered ++ octetsOf (crc covered)) 30 = crc covered := by
    simpa using wordAt_append_octetsOf h (crc covered) []
  simp [crcGood, octetsOf_length, hword, List.take_left' h, h]

theorem length_of_crcGood {octets : List Byte} (h : crcGood octets = true) : octets.length = 32 := by
  simp only [crcGood, Bool.and_eq_true, decide_eq_true_eq] at h
  exact h.1

theorem headerAndBody_length (b : Burst) : (headerAndBody b).length = 30 := by
  simp [headerAndBody, octetsOf_length, padTo_length]

theorem crcGood_writeBurst (b : Burst) : crcGood (writeBurst b) = true := crcGood_append_crc (headerAndBody_length b)

/-! ### The header fields (R167) -/

theorem BurstKind.ofBits_bits (k : BurstKind) : BurstKind.ofBits k.bits = k := by cases k <;> rfl

theorem PresenceFlag.ofBits_bits (f : PresenceFlag) : PresenceFlag.ofBits f.bits = f := by cases f <;> rfl

theorem role_of_bit (r : Role) : (if Role.bit r = true then Role.locomotive else .portable) = r := by cases r <;> rfl

/-- The first octet of a burst, field by field. -/
theorem headerOctet_fields (kind : BitVec 2) (crowded role : Bool) (index : BitVec 3) (last : Bool) :
    (kind ++ BitVec.ofBool crowded ++ BitVec.ofBool role ++ index ++ BitVec.ofBool last).extractLsb' 6 2 = kind ∧
      (kind ++ BitVec.ofBool crowded ++ BitVec.ofBool role ++ index ++ BitVec.ofBool last).getLsbD 5 = crowded ∧
      (kind ++ BitVec.ofBool crowded ++ BitVec.ofBool role ++ index ++ BitVec.ofBool last).getLsbD 4 = role ∧
      (kind ++ BitVec.ofBool crowded ++ BitVec.ofBool role ++ index ++ BitVec.ofBool last).extractLsb' 1 3 = index ∧
      (kind ++ BitVec.ofBool crowded ++ BitVec.ofBool role ++ index ++ BitVec.ofBool last).getLsbD 0 = last := by
  refine ⟨?_, ?_, ?_, ?_, ?_⟩
  · revert kind crowded role index last; decide
  · revert kind crowded role index last; decide
  · revert kind crowded role index last; decide
  · revert kind crowded role index last; decide
  · revert kind crowded role index last; decide

/-- The eighth octet of a burst, field by field. -/
theorem flagOctet_fields (confirm : Bool) (flag : BitVec 2) :
    (BitVec.ofBool confirm ++ flag ++ 0#5).getLsbD 7 = confirm ∧ (BitVec.ofBool confirm ++ flag ++ 0#5).extractLsb' 5 2 = flag := by
  revert confirm flag
  decide

theorem padTo_of_length {n : Nat} {octets : List Byte} (h : octets.length = n) : padTo n octets = octets := by
  simp [padTo, ← h]

theorem readBurst_writeBurst (b : Burst) : readBurst (writeBurst b) = { b with body := padTo 22 b.body } := by
  obtain ⟨hkind, hcrowded, hrole, hindex, hlast⟩ := headerOctet_fields b.kind.bits b.crowded (Role.bit b.role) b.index b.last
  obtain ⟨hconfirm, hflag⟩ := flagOctet_fields b.confirm b.presence.bits
  have hheader : octetAt (writeBurst b) 0 =
    b.kind.bits ++ BitVec.ofBool b.crowded ++ BitVec.ofBool (Role.bit b.role) ++ b.index ++ BitVec.ofBool b.last := rfl
  have hteam : octetAt (writeBurst b) 1 = b.team := rfl
  have hsender : wordAt (writeBurst b) 2 = b.sender := ofOctets_highOctet_lowOctet b.sender
  have htarget : wordAt (writeBurst b) 4 = b.target := ofOctets_highOctet_lowOctet b.target
  have hnumber : octetAt (writeBurst b) 6 = b.callNumber := rfl
  have hflags : octetAt (writeBurst b) 7 = BitVec.ofBool b.confirm ++ b.presence.bits ++ 0#5 := rfl
  have hbody : ((writeBurst b).drop 8).take 22 = padTo 22 b.body := List.take_left' (padTo_length 22 b.body)
  simp only [readBurst, hheader, hteam, hsender, htarget, hnumber, hflags, hbody, hkind, hcrowded, hrole, hindex, hlast, hconfirm,
    hflag, BurstKind.ofBits_bits, PresenceFlag.ofBits_bits, role_of_bit]

/-- Settles O29. -/
theorem burstsReadBackAsWritten : Obligations.BurstsReadBackAsWritten := by
  intro b hb
  refine ⟨crcGood_writeBurst b, ?_⟩
  rw [readBurst_writeBurst, padTo_of_length hb]

/-! ### The bursts of a staging (R35) -/

theorem readBuffer_length (m : List Host.Cell) (b : BufferNumber) : (readBuffer m b).length = 22 := by simp [readBuffer]

theorem composed_readback {s : State} {e : ReadbackEntry} {rest : List ReadbackEntry} (h : s.odu.rbq = e :: rest) :
    composed s .readback = writeBurst (composeReadback s e) := by simp [composed, h]

theorem composed_fragment {s : State} {slot : Nat} {o : Order} (index : Nat) (h : orderAt slot s = some o) :
    composed s (.fragment slot index) = writeBurst (composeFragment s o index) := by simp [composed, h]

/-- The body of a fragment is its buffer's content (R35). -/
theorem composeFragment_body {s : State} {o : Order} {index : Nat} {buffer : BufferNumber} (h : o.buffers[index]? = some buffer) :
    (composeFragment s o index).body = readBuffer s.bpl.memory buffer := by
  simp [composeFragment, readBuffers, h]

/-- Settles O27: each kind is written by writeBurst, which reads back with the body filled up. -/
theorem composedBurstsCarryTheirFields : Obligations.ComposedBurstsCarryTheirFields := by
  rintro s base rfl
  refine ⟨fun team => ⟨crcGood_writeBurst _, ?allstop⟩, fun flag => ⟨crcGood_writeBurst _, ?presence⟩, fun e rest hrbq => ?readback,
    fun slot index o buffer ho hbuffer _ => ?fragment⟩
  case allstop => exact readBurst_writeBurst _
  case presence => exact readBurst_writeBurst _
  case readback =>
    rw [composed_readback hrbq]
    exact ⟨crcGood_writeBurst _, readBurst_writeBurst _⟩
  case fragment =>
    rw [composed_fragment index ho]
    refine ⟨crcGood_writeBurst _, ?_⟩
    rw [readBurst_writeBurst, composeFragment_body hbuffer, padTo_of_length (readBuffer_length _ _)]
    rfl

end Sys2Proof.Machine
end

section
/-! PROOF. The transmitter's registers (03 sections 3.1 to 3.4): every effect leaves them sound, between the end of a burst on air and
the leaving of ON_AIR too. -/

namespace Sys2Proof.Machine

/-! ### The generator (R43, R44) -/

/-- One advance of a generator that is not 0 does not give 0: only the top bit alone is shifted out, and then the bit that comes in is 1. -/
theorem advanceGenerator_ne_zero {g : BitVec 15} (h : g ≠ 0) : advanceGenerator g ≠ 0 := by
  intro hzero
  have hsum : (2 * g.toNat + (g.getLsbD 14 ^^ g.getLsbD 13).toNat) % 2 ^ 15 = 0 :=
    congrArg BitVec.toNat ((advanceGenerator_eq_ofNat g).symm.trans hzero)
  have hlt := g.isLt
  have hpos : g.toNat ≠ 0 := fun h0 => h (BitVec.eq_of_toNat_eq h0)
  have hin := Bool.toNat_le (g.getLsbD 14 ^^ g.getLsbD 13)
  have htop : g = 16384#15 := by
    apply BitVec.eq_of_toNat_eq
    simp only [BitVec.toNat_ofNat]
    omega
  subst htop
  revert hzero
  decide

theorem generatorSeed_ne_zero (station : Station) : generatorSeed station ≠ 0 := by
  unfold generatorSeed
  dsimp only
  split
  · decide
  · assumption

/-! ### The window and the draw (R42, R43) -/

theorem windowOf_bounds (s : State) (source : Source) : 1 ≤ windowOf s source ∧ windowOf s source ≤ 128 := by
  have hbase : 1 ≤ baseWindow s source ∧ baseWindow s source ≤ 128 := by
    cases source with
    | allstop team => simp [baseWindow]
    | readback => simp [baseWindow]
    | presence flag => simp [baseWindow]
    | fragment slot index =>
      have hpos : 0 < wBase s.config * 2 ^ (((orderAt slot s).map Order.attempts).getD 1 - 1) :=
        Nat.mul_pos (by simp [wBase_eq_two_pow]) (by simp)
      simp only [baseWindow]
      omega
  unfold windowOf
  split <;> omega

theorem drawFrom_lt (g : Option (BitVec 15)) {window : Nat} (h : 1 ≤ window) : drawFrom g window < window := by
  cases g with
  | none => exact h
  | some v => exact Nat.mod_lt _ h

/-! ### The registers between two events, and between the end of a burst on air and the leaving of ON_AIR -/

/-- The access state and the registers: as in the table of 03 section 3.2, or, where a burst has just completed, still ON_AIR with the
on-air register already empty (R40). -/
def AccessFits (completed : Bool) (c : Cau) : Prop := if completed then c.access = .onAir ∧ c.onAir = none else AccessAgrees c

/-- What TransmitterSound says, with the access state as AccessFits has it. -/
structure Keyed (completed : Bool) (s : State) : Prop where
  access : AccessFits completed s.cau
  staged : ∀ st, s.cau.staging = some st → StagedSound st
  onAir : ∀ b, s.cau.onAir = some b → crcGood b.burst = true
  gate : GateKept s.cau
  generator : GeneratorKept s
  counts : CountsWithin s.cau

theorem keyed_iff {s : State} : TransmitterSound s ↔ Keyed false s :=
  ⟨fun ⟨ha, hs, ho, hg, hn, hc⟩ => ⟨ha, hs, ho, hg, hn, hc⟩, fun ⟨ha, hs, ho, hg, hn, hc⟩ => ⟨ha, hs, ho, hg, hn, hc⟩⟩

section
variable {k : Bool} {s t : State}

theorem Keyed.of_cau (h : Keyed k s) (hcfl : t.cfl = s.cfl) (hcau : t.cau = s.cau) : Keyed k t := by
  obtain ⟨ha, hs, ho, hg, hn, hc⟩ := h
  refine ⟨hcau ▸ ha, hcau ▸ hs, hcau ▸ ho, hcau ▸ hg, ?_, hcau ▸ hc⟩
  unfold GeneratorKept at hn ⊢
  rwa [hcau, hcfl]

/-- The registers, counts, gate and generator: all that Keyed looks at. -/
def keyRegisters (c : Cau) :
    AccessState × Option Staged × Option OnAir × Bool × Option (BitVec 15) × Nat × Nat × Nat :=
  (c.access, c.staging, c.onAir, c.gateOpen, c.generator, c.gapCount, c.slotCount, c.onAirSamples)

theorem Keyed.of_registers (h : Keyed k s) (hcfl : t.cfl = s.cfl) (hr : keyRegisters t.cau = keyRegisters s.cau) : Keyed k t := by
  simp only [keyRegisters, Prod.mk.injEq] at hr
  obtain ⟨h1, h2, h3, h4, h5, h6, h7, h8⟩ := hr
  obtain ⟨ha, hs, ho, hg, hn, hc⟩ := h
  constructor
  · unfold AccessFits AccessAgrees at ha ⊢
    rwa [h1, h2, h3]
  · rwa [h2]
  · rwa [h3]
  · unfold GateKept at hg ⊢
    rwa [h2, h3, h4]
  · unfold GeneratorKept at hn ⊢
    rwa [h5, hcfl]
  · unfold CountsWithin at hc ⊢
    rwa [h6, h7, h8]

/-! ### Staging (R34 to R36) -/

/-- A source whose burst can be composed, an order fragment only with the gate open (R46). -/
def Stageable (source : Source) (s : State) : Prop :=
  crcGood (composed s source) = true ∧ (isFragment source = true → s.cau.gateOpen = true)

theorem stageable_allstop (team : Team) (s : State) : Stageable (.allstop team) s := ⟨crcGood_writeBurst _, nofun⟩

/-- What the arbiter chooses can be staged (R45 to R47). -/
theorem stageable_of_ready {source : Source} (h : readyClass s = some source) : Stageable source s := by
  rcases readyClass_some h with ⟨team, -, rfl⟩ | ⟨-, hne, rfl⟩ | ⟨-, -, flag, -, rfl⟩ | ⟨-, -, -, slot, index, hready, rfl⟩
  · exact stageable_allstop team s
  · obtain ⟨e, rest, hq⟩ := List.exists_cons_of_ne_nil hne
    exact ⟨composed_readback hq ▸ crcGood_writeBurst _, nofun⟩
  · exact ⟨crcGood_writeBurst _, nofun⟩
  · obtain ⟨o, ho, -, -, -, -, hgate⟩ := readyFragment_some hready
    exact ⟨composed_fragment index ho ▸ crcGood_writeBurst _, fun _ => hgate⟩

/-- Staging a burst takes nothing but credit from the CAU (R29). -/
theorem noteStaged_cau (source : Source) (s : State) : ∃ credit, (noteStaged source s).cau = { s.cau with credit := credit } := by
  cases source with
  | fragment slot index => exact ⟨_, (setPlace_frame slot .staged (chargeCredit s)).2.2.2.1⟩
  | allstop team => exact ⟨_, rfl⟩
  | readback => exact ⟨_, rfl⟩
  | presence flag => exact ⟨_, rfl⟩

/-- R36: the counts of the access sequence start where IDLE is left. -/
theorem stage_counts (source : Source) (s : State) :
    (stage source s).cau.gapCount = (if s.cau.access = .idle then 0 else s.cau.gapCount) ∧
      (stage source s).cau.slotCount = (if s.cau.access = .idle then 0 else s.cau.slotCount) ∧
      (stage source s).cau.onAirSamples = s.cau.onAirSamples := by
  unfold stage
  dsimp only
  obtain ⟨credit, hcau⟩ := noteStaged_cau source _
  rw [hcau]
  split <;> simp

theorem keyed_stage {source : Source} (h : Keyed k s) (hs : Stageable source s) : Keyed k (stage source s) := by
  obtain ⟨ha, -, ho, ⟨-, hgate⟩, ⟨hseed, hzero⟩, hgap, hslot, hsamples⟩ := h
  obtain ⟨hcrc, hopen⟩ := hs
  obtain ⟨hw1, hw128⟩ := windowOf_bounds s source
  obtain ⟨force, hstaging, -⟩ := stage_staging source s
  obtain ⟨hgapCount, hslotCount, hairSamples⟩ := stage_counts source s
  constructor
  · cases k with
    | true =>
      obtain ⟨hacc, hair⟩ := ha
      simp [AccessFits, stage_access, hacc, hair]
    | false =>
      have ha' : AccessAgrees s.cau := ha
      change AccessAgrees _
      unfold AccessAgrees at ha' ⊢
      rw [stage_access, hstaging]
      cases hacc : s.cau.access <;> simp [hacc] at ha' ⊢ <;> simp [ha']
  · intro st hst
    obtain rfl := Option.some.inj (hstaging.symm.trans hst)
    exact ⟨hcrc, hw1, hw128, drawFrom_lt _ hw1⟩
  · simpa using ho
  · refine ⟨fun st hst hf => ?_, by simpa using hgate⟩
    obtain rfl := Option.some.inj (hstaging.symm.trans hst)
    simpa using hopen hf
  · rw [GeneratorKept, stage_generator]
    refine ⟨by simpa using hseed, fun hg => ?_⟩
    obtain ⟨g, hg, hadvanced⟩ := Option.map_eq_some_iff.mp hg
    refine advanceGenerator_ne_zero ?_ hadvanced
    rintro rfl
    exact hzero hg
  · rw [CountsWithin, hgapCount, hslotCount, hairSamples]
    refine ⟨?_, ?_, hsamples⟩ <;> split <;> omega

theorem keyed_arbitrate (h : Keyed k s) : Keyed k (arbitrate s) := by
  rcases arbitrate_cases s with heq | ⟨source, -, -, hready, heq⟩
  · rwa [heq]
  · have hs := stageable_of_ready hready
    rw [heq]
    cases source with
    | allstop team => exact keyed_stage (h.of_registers rfl rfl) (stageable_allstop team _)
    | readback => exact keyed_stage h hs
    | presence flag => exact keyed_stage h hs
    | fragment slot index => exact keyed_stage h hs

/-! ### Going on air, giving back, withdrawal (R30, R39, R49, R50) -/

/-- A staged burst that goes on air ends in ON_AIR with the register filled, also from the end of another burst (R40, R51). -/
theorem keyed_goOnAir {st : Staged} (h : Keyed k s) (hst : s.cau.staging = some st) : Keyed false (goOnAir s) := by
  obtain ⟨hcrc, -⟩ := h.staged st hst
  have hopen := h.gate.1 st hst
  have hcau := goOnAir_cau hst
  constructor
  · simp [AccessFits, AccessAgrees, hcau]
  · simp [hcau]
  · simpa [hcau] using hcrc
  · simpa [GateKept, hcau] using hopen
  · simpa [GeneratorKept, hcau] using h.generator
  · simp [CountsWithin, hcau]

/-- A given-back burst gives the CAU nothing but credit (R30). -/
theorem giveBack_cau (source : Source) (s : State) : ∃ credit, (giveBack source s).cau = { s.cau with credit := credit } := by
  cases source with
  | fragment slot index => exact ⟨_, (setPlace_frame slot .none (refundCredit s)).2.2.2.1⟩
  | allstop team => exact ⟨_, rfl⟩
  | readback => exact ⟨_, rfl⟩
  | presence flag => exact ⟨_, rfl⟩

theorem keyed_giveBack (source : Source) (h : Keyed k s) : Keyed k (giveBack source s) := by
  obtain ⟨credit, hcau⟩ := giveBack_cau source s
  exact h.of_registers (by simp) (by rw [hcau]; rfl)

theorem emptyStaging_onAirSamples (s : State) : (emptyStaging s).cau.onAirSamples = s.cau.onAirSamples := by
  unfold emptyStaging
  dsimp only
  split <;> rfl

theorem keyed_emptyStaging (h : Keyed k s) : Keyed k (emptyStaging s) := by
  obtain ⟨ha, -, ho, ⟨-, hgate⟩, hgen, hgap, hslot, hsamples⟩ := h
  obtain ⟨hnone, htimed, huntimed⟩ := emptyStaging_cau s
  have hgateOpen : (emptyStaging s).cau.gateOpen = s.cau.gateOpen := by simp
  have honAir : (emptyStaging s).cau.onAir = s.cau.onAir := by simp
  by_cases hacc : s.cau.access = .gap ∨ s.cau.access = .backoff
  · obtain ⟨hidle, hgap0, hslot0⟩ := htimed hacc
    have hsilent : k = false ∧ s.cau.onAir = none := by
      cases k with
      | true => rcases hacc with hacc | hacc <;> simp [AccessFits, hacc] at ha
      | false => rcases hacc with hacc | hacc <;> simp [AccessFits, AccessAgrees, hacc] at ha <;> exact ⟨rfl, ha.2⟩
    obtain ⟨rfl, hsilent⟩ := hsilent
    refine ⟨?_, by simp [hnone], by simpa using ho, ⟨by simp [hnone], by simpa using hgate⟩, by simpa [GeneratorKept] using hgen,
      by simp [hgap0], by simp [hslot0],
      emptyStaging_onAirSamples s ▸ hsamples⟩
    simp [AccessFits, AccessAgrees, hidle, hnone, hsilent]
  · have hcau := huntimed hacc
    refine ⟨?_, by simp [hnone], by simpa using ho, ⟨by simp [hnone], by simpa using hgate⟩, by simpa [GeneratorKept] using hgen,
      by simp [hcau, hgap], by simp [hcau, hslot], by simp [hcau, hsamples]⟩
    rw [hcau]
    cases k with
    | true => exact ha
    | false =>
      have ha' : AccessAgrees s.cau := ha
      change AccessAgrees _
      unfold AccessAgrees at ha' ⊢
      cases hs : s.cau.access <;> simp_all

theorem keyed_withdraw (meant : Source → Bool) (h : Keyed k s) : Keyed k (withdraw meant s) := by
  rcases withdraw_cases meant s with heq | ⟨st, -, -, heq⟩
  · rwa [heq]
  · rw [heq]
    exact keyed_giveBack _ (keyed_emptyStaging h)

/-! ### All-stop requests (R48, R49) -/

/-- With its team changed and its CRC recomposed a staged ALLSTOP stays sound (R48). -/
theorem stagedSound_retag {st : Staged} (h : StagedSound st) (team : Team) : StagedSound (retag st team) := by
  obtain ⟨hcrc, hbounds⟩ := h
  have hlength : ((st.burst.take 30).set 1 team).length = 30 := by simp [length_of_crcGood hcrc]
  exact ⟨crcGood_append_crc hlength, hbounds⟩

theorem keyed_retag {st : Staged} (team : Team) (h : Keyed k s) (hst : s.cau.staging = some st) :
    Keyed k { s with cau.staging := some (retag st team) } := by
  obtain ⟨ha, hstaged, ho, ⟨-, hgate⟩, hgen, hcounts⟩ := h
  refine ⟨?_, ?_, ho, ⟨?_, hgate⟩, hgen, hcounts⟩
  · cases k with
    | true => exact ha
    | false =>
      have ha' : AccessAgrees s.cau := ha
      change AccessAgrees _
      unfold AccessAgrees at ha' ⊢
      cases hacc : s.cau.access <;> simp [hacc, hst] at ha' ⊢ <;> simp [ha']
  · rintro _ ⟨rfl⟩
    exact stagedSound_retag (hstaged st hst) team
  · rintro _ ⟨rfl⟩ hfragment
    cases hfragment

theorem keyed_displace (old : Staged) (team : Team) (h : Keyed k s) : Keyed k (displace old team s) := by
  have hstaged : Keyed k (stage (.allstop team) (giveBack old.source s)) :=
    keyed_stage (keyed_giveBack _ h) (stageable_allstop team _)
  unfold displace
  dsimp only
  split
  · rename_i st hst
    split
    · rename_i hnow
      have hk : k = false := by
        cases k with
        | false => rfl
        | true => exact absurd (hstaged.access.1.symm.trans hnow.1) (by decide)
      subst hk
      exact keyed_goOnAir hstaged hst
    · exact hstaged
  · exact hstaged

theorem keyed_requestAllstop (team : Team) (h : Keyed k s) : Keyed k (requestAllstop team s) := by
  unfold requestAllstop
  split
  · exact h.of_registers rfl rfl
  · split
    · exact h.of_registers rfl rfl
    · rename_i st hst
      split
      · split
        · exact h
        · exact keyed_retag _ h hst
      · exact keyed_displace _ team h

theorem keyed_startSeries (team : Team) (h : Keyed k s) : Keyed k (startSeries team s) :=
  keyed_requestAllstop _ (h.of_cau rfl rfl)

/-! ### Orders and team (R92 to R101, R105 to R117) -/

theorem keyed_finishOrder (slot : Nat) (outcome : OrderOutcome) (h : Keyed k s) : Keyed k (finishOrder slot outcome s) := by
  cases ho : orderAt slot s with
  | none => simpa [finishOrder, ho] using h
  | some o =>
    obtain ⟨w, hw, heq⟩ := finishOrder_of_order ho outcome
    have hkeyed : Keyed k w := by
      rcases hw with rfl | ⟨rfl, -⟩
      · exact h
      · exact keyed_withdraw _ h
    rw [heq]
    exact hkeyed.of_cau (by simp) (by simp)

theorem keyed_promote_setSlot (slot : Nat) (o : Option Order) (h : Keyed k s) : Keyed k (promote (setSlot slot o s)) :=
  h.of_cau (by simp) (by simp)

theorem keyed_endAttempt (slot : Nat) (o : Order) (h : Keyed k s) : Keyed k (endAttempt slot o s) := by
  unfold endAttempt
  split
  · exact keyed_finishOrder slot _ h
  · split
    · exact keyed_finishOrder slot _ h
    · split
      · exact keyed_finishOrder slot _ h
      · exact keyed_promote_setSlot slot _ h

theorem keyed_setSlot (slot : Nat) (o : Option Order) (h : Keyed k s) : Keyed k (setSlot slot o s) := h.of_cau rfl rfl

theorem keyed_fragmentCompleted (slot index : Nat) (h : Keyed k s) : Keyed k (fragmentCompleted slot index s) := by
  unfold fragmentCompleted
  split
  · exact h
  · split
    · dsimp only
      split
      · exact keyed_finishOrder slot _ (keyed_setSlot slot _ h)
      · split
        · exact keyed_setSlot slot _ (keyed_setSlot slot _ h)
        · exact keyed_endAttempt slot _ (keyed_setSlot slot _ h)
    · exact h

theorem keyed_cancelOrder (slot : Nat) (o : Order) (h : Keyed k s) : Keyed k (cancelOrder slot o s) := by
  unfold cancelOrder
  split
  · exact keyed_setSlot slot _ h
  · exact keyed_finishOrder slot _ h

theorem keyed_waitExpired (slot : Nat) (h : Keyed k s) : Keyed k (waitExpired slot s) := by
  unfold waitExpired
  split
  · exact h
  · split
    · exact keyed_promote_setSlot slot _ (h.of_registers rfl rfl)
    · exact keyed_finishOrder slot _ h

theorem keyed_memberAnswered (slot : Nat) (o : Order) (station : Station) (v : Verdict) (h : Keyed k s) :
    Keyed k (memberAnswered slot o station v s) := by
  have hrate : Keyed k (if v = .accepted then paceIncrease s else s) := by
    split
    · exact h.of_registers rfl rfl
    · exact h
  unfold memberAnswered
  dsimp only
  split
  · exact keyed_finishOrder slot _ (keyed_setSlot slot _ hrate)
  · exact keyed_setSlot slot _ hrate

theorem keyed_readbackArrived (b : Burst) (h : Keyed k s) : Keyed k (readbackArrived b s) := by
  unfold readbackArrived
  split
  · split
    · exact keyed_memberAnswered _ _ _ _ h
    · exact h.of_cau rfl rfl
  · exact h.of_cau rfl rfl

theorem keyed_requestPresence (flag : PresenceFlag) (h : Keyed k s) : Keyed k (requestPresence flag s) :=
  keyed_withdraw _ (h.of_cau rfl rfl)

theorem keyed_clearTeam (h : Keyed k s) : Keyed k (clearTeam s) := keyed_withdraw _ (h.of_cau (by simp) (by simp))

theorem keyed_joined (team : Team) (h : Keyed k s) : Keyed k (joined team s) :=
  have hcleared : Keyed k (clearTeam { s with tmu.leavePending := false }) := keyed_clearTeam (h.of_cau rfl rfl)
  keyed_requestPresence .joining (hcleared.of_cau rfl rfl)

/-- The joining gate opens: what needs it open goes on having it open (R46, R117). -/
theorem keyed_openGate (h : Keyed k s) : Keyed k { s with cau.gateOpen := true } := by
  obtain ⟨ha, hstaged, ho, -, hgen, hcounts⟩ := h
  exact ⟨ha, hstaged, ho, ⟨fun _ _ _ => rfl, fun _ _ _ => rfl⟩, hgen, hcounts⟩

theorem keyed_presenceCompleted (flag : PresenceFlag) (h : Keyed k s) : Keyed k (presenceCompleted flag s) := by
  cases flag with
  | normal => exact h
  | joining => exact keyed_openGate h
  | leaving =>
    unfold presenceCompleted
    dsimp only
    split
    · exact (keyed_clearTeam h).of_cau rfl rfl
    · exact h

/-! ### A burst received (R11 to R14) -/

theorem keyed_routeHomeBurst (b : Burst) (stamp : Stamp) (h : Keyed k s) : Keyed k (routeHomeBurst b stamp s) := by
  unfold routeHomeBurst
  split
  · exact h.of_cau (by simp) (by simp)
  · split
    · exact keyed_readbackArrived b h
    · exact h
  · exact h.of_cau (by simp) (by simp)
  · exact h.of_cau (by simp) (by simp)

theorem keyed_classify (octets : List Byte) (stamp : Stamp) (h : Keyed k s) : Keyed k (classify octets stamp s) := by
  obtain ⟨heard, ⟨rxc, crowdedHeard, rfl⟩, hcases⟩ := classify_cases octets stamp s
  have hheard : Keyed k (heardState rxc crowdedHeard s) := h.of_registers rfl rfl
  rcases hcases with heq | heq | heq | ⟨-, -, heq⟩
  · exact heq ▸ hheard
  · exact heq ▸ hheard.of_cau rfl rfl
  · exact heq ▸ hheard.of_cau (by simp) (by simp)
  · exact heq ▸ keyed_routeHomeBurst _ stamp (hheard.of_cau (by simp) (by simp))

/-! ### Completions (R37 to R40, R51) -/

theorem keyed_allstopCompleted (h : Keyed k s) : Keyed k (allstopCompleted s) := by
  unfold allstopCompleted
  split
  · exact h
  · split
    · exact h.of_cau rfl rfl
    · exact keyed_requestAllstop _ (h.of_cau rfl rfl)

theorem keyed_reportCompletion (source : Source) (h : Keyed k s) : Keyed k (reportCompletion source s) := by
  have hsilent : Keyed k { s with tmu.presenceCount := 0 } := h.of_cau rfl rfl
  cases source with
  | allstop team => exact keyed_allstopCompleted hsilent
  | readback => exact hsilent
  | presence flag => exact keyed_presenceCompleted flag hsilent
  | fragment slot index => exact keyed_fragmentCompleted slot index hsilent

theorem keyed_leaveOnAir (h : Keyed true s) : Keyed false (leaveOnAir s) := by
  unfold leaveOnAir
  split
  · rename_i st hst
    split
    · exact keyed_goOnAir h hst
    · obtain ⟨⟨-, hsilent⟩, hstaged, ho, hgate, hgen, -⟩ := h
      exact ⟨⟨by simp [hst], hsilent⟩, hstaged, ho, hgate, hgen, Nat.zero_le _, Nat.zero_le _, Nat.zero_le _⟩
  · rename_i hst
    obtain ⟨⟨-, hsilent⟩, hstaged, ho, hgate, hgen, -⟩ := h
    exact ⟨⟨hst, hsilent⟩, hstaged, ho, hgate, hgen, Nat.zero_le _, Nat.zero_le _, Nat.zero_le _⟩

/-- The on-air register is emptied first, and the access state leaves ON_AIR last (R40). -/
theorem keyed_onAirCompleted (h : Keyed false s) (hdue : onAirDue s = true) : Keyed false (onAirCompleted s) := by
  simp only [onAirDue, Bool.and_eq_true, decide_eq_true_eq] at hdue
  obtain ⟨-, hacc, -⟩ := hdue
  unfold onAirCompleted
  split
  · obtain ⟨-, hstaged, -, ⟨hgate, -⟩, hgen, hcounts⟩ := h
    have hended : Keyed true { s with cau.onAir := none } := ⟨⟨hacc, rfl⟩, hstaged, nofun, ⟨hgate, nofun⟩, hgen, hcounts⟩
    exact keyed_leaveOnAir (keyed_reportCompletion _ hended)
  · exact h

/-- In GAP and in BACKOFF a burst stands staged and none is on air. -/
theorem Keyed.staged_of_access (h : Keyed false s) (hacc : s.cau.access = .gap ∨ s.cau.access = .backoff) :
    (∃ st, s.cau.staging = some st) ∧ s.cau.onAir = none := by
  have ha : AccessAgrees s.cau := h.access
  unfold AccessAgrees at ha
  rcases hacc with hacc | hacc <;> simp only [hacc, Option.isSome_iff_exists] at ha <;> exact ha

theorem keyed_gapCompleted (h : Keyed false s) (hdue : gapDue s = true) : Keyed false (gapCompleted s) := by
  simp only [gapDue, Bool.and_eq_true, decide_eq_true_eq] at hdue
  obtain ⟨-, hacc, -⟩ := hdue
  obtain ⟨⟨st, hst⟩, hsilent⟩ := h.staged_of_access (.inl hacc)
  unfold gapCompleted
  split
  · exact keyed_goOnAir h hst
  · obtain ⟨-, hstaged, ho, hgate, hgen, hgap, -, hsamples⟩ := h
    exact ⟨⟨by simp [hst], hsilent⟩, hstaged, ho, hgate, hgen, hgap, Nat.zero_le _, hsamples⟩

theorem keyed_slotCompleted (h : Keyed false s) (hdue : slotDue s = true) : Keyed false (slotCompleted s) := by
  simp only [slotDue, Bool.and_eq_true, decide_eq_true_eq] at hdue
  obtain ⟨-, hacc, -⟩ := hdue
  obtain ⟨⟨st, hst⟩, hsilent⟩ := h.staged_of_access (.inr hacc)
  obtain ⟨ha, hstaged, ho, ⟨hgate, hgateAir⟩, hgen, hgap, -, hsamples⟩ := h
  obtain ⟨hcrc, hw1, hw128, hb⟩ := hstaged st hst
  have hcounted : Keyed false { s with
      cau.staging := s.cau.staging.map (fun st => { st with backoff := st.backoff - 1 })
      cau.slotCount := 0 } := by
    rw [hst]
    refine ⟨?_, ?_, ho, ⟨?_, hgateAir⟩, hgen, hgap, Nat.zero_le _, hsamples⟩
    · simp [AccessFits, AccessAgrees, hacc, hsilent]
    · rintro _ ⟨rfl⟩
      exact ⟨hcrc, hw1, hw128, Nat.lt_of_le_of_lt (Nat.sub_le _ _) hb⟩
    · rintro _ ⟨rfl⟩ hf
      exact hgate st hst hf
  unfold slotCompleted
  dsimp only
  split
  · exact keyed_goOnAir hcounted (by rw [hst]; rfl)
  · exact hcounted

/-- The timer of the staged burst is no part of what is kept of it. -/
theorem keyed_retime (force : ForceTimer → ForceTimer) (h : Keyed k s) :
    Keyed k { s with cau.staging := s.cau.staging.map (fun st => { st with force := force st.force }) } := by
  obtain ⟨ha, hstaged, ho, ⟨hgate, hgateAir⟩, hgen, hcounts⟩ := h
  cases hst : s.cau.staging with
  | none =>
    refine ⟨?_, nofun, ho, ⟨nofun, hgateAir⟩, hgen, hcounts⟩
    simpa [AccessFits, AccessAgrees, hst] using ha
  | some st =>
    refine ⟨?_, ?_, ho, ⟨?_, hgateAir⟩, hgen, hcounts⟩
    · simpa [AccessFits, AccessAgrees, hst] using ha
    · rintro _ ⟨rfl⟩
      exact hstaged st hst
    · rintro _ ⟨rfl⟩ hf
      exact hgate st hst hf

theorem keyed_forceExpired (h : Keyed false s) (hdue : forceDue s = true) : Keyed false (forceExpired s) := by
  obtain ⟨st, hst⟩ : ∃ st, s.cau.staging = some st := by
    cases hst : s.cau.staging with
    | none => simp [forceDue, hst] at hdue
    | some st => exact ⟨st, rfl⟩
  unfold forceExpired
  split
  · exact keyed_retime (fun _ => .expired) h
  · exact keyed_goOnAir h hst

/-! ### Samples (R37 to R39) -/

/-- No count has reached its end when a sample is taken (log 4). -/
theorem counts_lt_of_not_sampleWaits (hr : running s = true) (hw : sampleWaits s = false) :
    (s.cau.access = .gap → s.cau.gapCount < 8) ∧ (s.cau.access = .backoff → s.cau.slotCount < 4) ∧
      (s.cau.access = .onAir → s.cau.onAirSamples < 60) := by
  simp only [sampleWaits, gapDue, slotDue, onAirDue, hr, Bool.true_and, Bool.or_eq_false_iff, decide_eq_false_iff_not, not_and,
    Nat.not_le] at hw
  obtain ⟨⟨⟨-, hgap⟩, hslot⟩, hair⟩ := hw
  exact ⟨hgap, hslot, hair⟩

theorem keyed_sampled (level : Level) (h : Keyed false s) (hr : running s = true) (hw : sampleWaits s = false) :
    Keyed false { s with cau := sampled s.config level s.rxc.reception.isSome s.cau } := by
  obtain ⟨hgapLt, hslotLt, hairLt⟩ := counts_lt_of_not_sampleWaits hr hw
  obtain ⟨ha, hstaged, ho, hgate, hgen, hgap, hslot, hsamples⟩ := h
  have ha' : AccessAgrees s.cau := ha
  by_cases hacc : s.cau.access = .onAir
  · rw [sampled_onAir _ _ _ hacc]
    exact ⟨ha, hstaged, ho, hgate, hgen, hgap, hslot, hairLt hacc⟩
  · rw [sampled_not_onAir rfl hacc]
    refine ⟨?_, hstaged, ho, hgate, hgen, ?_, ?_, hsamples⟩
    · unfold AccessAgrees at ha'
      change AccessAgrees _
      unfold AccessAgrees
      cases hs : s.cau.access with
      | idle => simpa [hs] using ha'
      | gap => simpa [hs] using ha'
      | onAir => exact absurd hs hacc
      | backoff =>
        simp only [hs] at ha'
        cases hb : busySample s.config s.cau.sense level s.rxc.reception.isSome <;> simpa [hb] using ha'
    · dsimp only
      split
      · exact hgap
      · split
        · exact Nat.zero_le _
        · split
          · exact hgapLt ‹_›
          · exact hgap
    · dsimp only
      split
      · split
        · exact Nat.zero_le _
        · exact hslotLt ‹_›
      · exact hslot

/-! ### Start-up (R158 to R165) -/

/-- Registers empty in IDLE with every count 0, as at reset, at entry and at RESTART (R33, R52). -/
theorem keyed_of_empty {generator : Option (BitVec 15)} (hr : keyRegisters t.cau = keyRegisters { Cau.reset with generator := generator })
    (hseeded : t.cfl.part = .running → generator.isSome = true) (hzero : generator ≠ some 0) : Keyed false t := by
  have hempty : Keyed false { t with cau := { Cau.reset with generator := generator } } :=
    ⟨⟨rfl, rfl⟩, nofun, nofun, ⟨nofun, nofun⟩, ⟨hseeded, hzero⟩, Nat.zero_le _, Nat.zero_le _, Nat.zero_le _⟩
  exact hempty.of_registers rfl hr

theorem keyed_enterRunning (c : Config) (h : Keyed k s) : Keyed false (enterRunning c s) := by
  refine keyed_of_empty (generator := some (s.cau.generator.getD (generatorSeed c.station))) rfl (fun _ => rfl) ?_
  obtain ⟨-, hzero⟩ := h.generator
  cases hg : s.cau.generator with
  | none => simpa using generatorSeed_ne_zero c.station
  | some g => simpa [hg] using hzero

theorem keyed_of_not_running (h : Keyed k s) (hcau : t.cau = s.cau) (hr : t.cfl.part ≠ .running) : Keyed k t := by
  obtain ⟨ha, hs, ho, hg, ⟨-, hzero⟩, hc⟩ := h
  exact ⟨hcau ▸ ha, hcau ▸ hs, hcau ▸ ho, hcau ▸ hg, ⟨fun h => absurd h hr, hcau ▸ hzero⟩, hcau ▸ hc⟩

theorem keyed_octetRead (x : Byte) (h : Keyed false s) : Keyed false (octetRead x s) := by
  unfold octetRead checkBlock
  dsimp only
  split
  · split
    · exact keyed_of_not_running h rfl nofun
    · split
      · exact keyed_of_not_running h rfl nofun
      · exact keyed_enterRunning _ h
  · obtain ⟨ha, hs, ho, hg, hn, hc⟩ := h
    exact ⟨ha, hs, ho, hg, hn, hc⟩

theorem keyed_restartRunning (h : Keyed k s) (hr : running s = true) : Keyed false (restartRunning s) := by
  obtain ⟨hseeded, hzero⟩ := h.generator
  exact keyed_of_empty (generator := s.cau.generator) (by rw [restartRunning_cau]; rfl) (fun _ => hseeded (of_decide_eq_true hr)) hzero

theorem keyed_tick (h : Keyed k s) : Keyed k (tick s) := by
  unfold tick
  dsimp only
  split
  · exact (keyed_retime ForceTimer.tick h).of_cau rfl rfl
  · exact h.of_cau rfl rfl

end

/-! ### Every effect -/

theorem keyed_quiet {s effect : State} (hq : Quiet s effect) (h : Keyed false s) : Keyed false effect := by
  cases hq with
  | reset => exact keyed_of_empty (generator := none) rfl nofun nofun
  | load hr => exact keyed_of_not_running h rfl nofun
  | noMemory hr => exact keyed_of_not_running h rfl nofun
  | sample level hr hw => exact keyed_sampled level h hr hw
  | aging hr =>
    have hframe := ageContexts_frame { s with asu.agingMs := s.asu.agingMs - 100 }
    exact h.of_cau (by simp [hframe]) (by simp [hframe])
  | nothing => exact h
  | _ => exact h.of_cau (by simp) (by simp)

theorem keyed_stirring {s effect : State} (hs : Stirring s effect) (h : Keyed false s) : Keyed false effect := by
  cases hs with
  | octet x => exact keyed_octetRead x h
  | burst octets stamp => exact keyed_classify octets stamp h
  | pace => exact h.of_registers rfl rfl
  | gap hdue => exact keyed_gapCompleted h hdue
  | slot hdue => exact keyed_slotCompleted h hdue
  | completion hdue => exact keyed_onAirCompleted h hdue
  | force hdue => exact keyed_forceExpired h hdue
  | wait slot => exact keyed_waitExpired slot h
  | presence => exact h.of_cau (by simp) (by simp)
  | series pressed team => exact keyed_startSeries team (h.of_cau rfl rfl)
  | submit slot sub => exact h.of_cau (by simp) (by simp)
  | cancel slot o => exact keyed_cancelOrder slot o h
  | join team => exact keyed_joined team h
  | leave => exact keyed_requestPresence _ (h.of_cau rfl rfl)
  | restart hr => exact keyed_restartRunning h hr

theorem keyed_looksInside : LooksInside (Keyed false) :=
  ⟨fun _ h => h.of_cau rfl rfl, fun _ _ h => h.of_cau rfl rfl, fun _ _ h => h.of_cau rfl rfl⟩

/-- Settles O51: every effect keeps the registers sound, and the arbiter stages only what can be staged. -/
theorem transmitterStaysSound : Obligations.TransmitterStaysSound := by
  intro s t h hstep
  exact keyed_iff.mpr (step_keeps_of_effects keyed_looksInside (fun _ => keyed_tick) (fun _ _ => keyed_quiet)
    (fun _ _ hs h => keyed_arbitrate (keyed_stirring hs h)) (keyed_iff.mp h) hstep)

end Sys2Proof.Machine
end

section
/-! PROOF. The contexts, the receive queues and the buffer contents (04 sections 4.1 to 4.8, 05 section 5.1): every effect keeps them
sound. -/

namespace Sys2Proof.Machine

/-! ### Slots in use -/

theorem mem_inUse_iff {α : Type} {slots : List (Option α)} {a : α} : a ∈ inUse slots ↔ ∃ i, slotAt slots i = some a := by
  refine ⟨fun h => ?_, fun ⟨i, h⟩ => mem_inUse_of_slotAt h⟩
  obtain ⟨x, hx, rfl⟩ := List.mem_filterMap.mp h
  obtain ⟨i, hi, hget⟩ := List.getElem_of_mem hx
  exact ⟨i, by simp [slotAt, List.getD, hi, hget]⟩

/-- The contents of the slots in use differ in a field exactly when the field tells the slot. -/
theorem nodup_inUse_iff {α β : Type} {f : α → β} {slots : List (Option α)} : ((inUse slots).map f).Nodup ↔
    ∀ i j a b, slotAt slots i = some a → slotAt slots j = some b → f a = f b → i = j := by
  refine ⟨fun h i j a b => slot_eq_of_nodup h, fun h => ?_⟩
  induction slots with
  | nil => exact List.nodup_nil
  | cons x rest ih =>
    have hrest : ((inUse rest).map f).Nodup :=
      ih fun i j a b ha hb hf => Nat.succ.inj (h (i + 1) (j + 1) a b ha hb hf)
    cases x with
    | none => exact hrest
    | some c =>
      refine List.nodup_cons.mpr ⟨fun hmem => ?_, hrest⟩
      obtain ⟨d, hd, hf⟩ := List.mem_map.mp hmem
      obtain ⟨j, hj⟩ := mem_inUse_iff.mp hd
      exact absurd (h 0 (j + 1) c d rfl hj hf.symm) (Nat.succ_ne_zero j).symm

/-- What stands in a slot after one slot is emptied stood there before. -/
theorem slotAt_of_set_none {α : Type} {slots : List (Option α)} {i j : Nat} {a : α} (h : slotAt (slots.set i none) j = some a) :
    i ≠ j ∧ slotAt slots j = some a := by
  by_cases hij : i = j
  · subst hij
    by_cases hi : i < slots.length
    · simp [slotAt_set_same hi] at h
    · rw [List.set_eq_of_length_le (Nat.not_lt.mp hi)] at h
      exact absurd (slotAt_lt h) hi
  · exact ⟨hij, by rwa [slotAt_set_other hij] at h⟩

/-- What stands in a slot after one slot is written is what was written, or stood there before. -/
theorem slotAt_of_set {α : Type} {slots : List (Option α)} {i j : Nat} {x a : α} (h : slotAt (slots.set i (some x)) j = some a) :
    i = j ∧ a = x ∨ i ≠ j ∧ slotAt slots j = some a := by
  by_cases hij : i = j
  · subst hij
    have hi : i < slots.length := by simpa using slotAt_lt h
    rw [slotAt_set_same hi] at h
    exact .inl ⟨rfl, (Option.some.inj h).symm⟩
  · exact .inr ⟨hij, by rwa [slotAt_set_other hij] at h⟩

/-! ### The contexts (R53) -/

/-- ContextsSound, read slot by slot. -/
structure ContextsFit (contexts : List (Option Context)) : Prop where
  length : contexts.length = 24
  sender : ∀ i j c d, slotAt contexts i = some c → slotAt contexts j = some d → c.sender = d.sender → i = j
  each : ∀ i c, slotAt contexts i = some c → c.buffers.length = c.next ∧ 1 ≤ c.next ∧ c.next ≤ 7

theorem contextsSound_iff {s : State} : ContextsSound s ↔ ContextsFit s.asu.contexts := by
  refine ⟨fun ⟨hlength, hsenders, heach⟩ => ⟨hlength, nodup_inUse_iff.mp hsenders, fun i c hc => heach c (mem_inUse_of_slotAt hc)⟩,
    fun ⟨hlength, hsenders, heach⟩ => ⟨hlength, nodup_inUse_iff.mpr hsenders, fun c hc => ?_⟩⟩
  obtain ⟨i, hi⟩ := mem_inUse_iff.mp hc
  exact heach i c hi

theorem ContextsFit.set_none {contexts : List (Option Context)} (h : ContextsFit contexts) (i : Nat) :
    ContextsFit (contexts.set i none) where
  length := by simpa using h.length
  sender j k c d hc hd := h.sender j k c d (slotAt_of_set_none hc).2 (slotAt_of_set_none hd).2
  each j c hc := h.each j c (slotAt_of_set_none hc).2

theorem ContextsFit.set {contexts : List (Option Context)} (h : ContextsFit contexts) {i : Nat} {c : Context}
    (hc : c.buffers.length = c.next ∧ 1 ≤ c.next ∧ c.next ≤ 7)
    (hother : ∀ j d, i ≠ j → slotAt contexts j = some d → d.sender ≠ c.sender) : ContextsFit (contexts.set i (some c)) where
  length := by simpa using h.length
  sender j k a b ha hb hab := by
    rcases slotAt_of_set ha with ⟨hij, rfl⟩ | ⟨hj, holda⟩ <;> rcases slotAt_of_set hb with ⟨hik, rfl⟩ | ⟨hk, holdb⟩
    · exact hij.symm.trans hik
    · exact absurd hab.symm (hother k b hk holdb)
    · exact absurd hab (hother j a hj holda)
    · exact h.sender j k a b holda holdb hab
  each j a ha := by
    rcases slotAt_of_set ha with ⟨-, rfl⟩ | ⟨-, ha⟩
    · exact hc
    · exact h.each j a ha

theorem contextsFit_of_empty {contexts : List (Option Context)} (hlength : contexts.length = 24) (h : ∀ x ∈ contexts, x = none) :
    ContextsFit contexts := by
  have hnone (i : Nat) (c : Context) : slotAt contexts i ≠ some c := by
    intro hc
    have hi := slotAt_lt hc
    have hget : contexts[i] = none := h _ (List.getElem_mem hi)
    simp [slotAt, List.getD, hi, hget] at hc
  exact ⟨hlength, fun i j c d hc => absurd hc (hnone i c), fun i c hc => absurd hc (hnone i c)⟩

/-! ### Contexts and receive queues (R53, R66 to R69) -/

/-- What AssemblySound says. -/
def Assembled (s : State) : Prop := ContextsFit s.asu.contexts ∧ ReceiveQueuesSound s

theorem assemblySound_iff {s : State} : AssemblySound s ↔ Assembled s := and_congr_left' contextsSound_iff

section
variable {s t : State}

theorem ReceiveQueuesSound.of_queues (h : ReceiveQueuesSound s) (hr : t.asu.rcq = s.asu.rcq) (hx : t.asu.exq = s.asu.exq) :
    ReceiveQueuesSound t := by
  unfold ReceiveQueuesSound at h ⊢
  rwa [hr, hx]

theorem Assembled.of_asu (h : Assembled s) (hasu : t.asu = s.asu) : Assembled t :=
  ⟨hasu ▸ h.1, h.2.of_queues (by rw [hasu]) (by rw [hasu])⟩

theorem Assembled.of_queue (h : Assembled s) (hc : t.asu.contexts = s.asu.contexts) (hr : t.asu.rcq = s.asu.rcq)
    (hx : t.asu.exq = s.asu.exq) : Assembled t := ⟨hc ▸ h.1, h.2.of_queues hr hx⟩

theorem queues_raiseException (e : ExceptionEntry) (h : ReceiveQueuesSound s) : ReceiveQueuesSound (raiseException e s) := by
  obtain ⟨hrcq, hexq, haccepted⟩ := h
  rcases raiseException_cases e s with ⟨hroom, heq⟩ | ⟨-, heq⟩
  · rw [heq]
    exact ⟨hrcq, by simpa using hroom, haccepted⟩
  · rw [heq]
    exact ⟨hrcq, hexq, haccepted⟩

theorem raiseException_contexts (e : ExceptionEntry) (s : State) : (raiseException e s).asu.contexts = s.asu.contexts := by simp

theorem assembled_raiseException (e : ExceptionEntry) (h : Assembled s) : Assembled (raiseException e s) :=
  ⟨raiseException_contexts e s ▸ h.1, queues_raiseException e h.2⟩

theorem assembled_abandon (i : Nat) (c : Context) (h : Assembled s) : Assembled (abandon i c s) :=
  ⟨h.1.set_none i, h.2.of_queues rfl rfl⟩

theorem assembled_setContext {i : Nat} {c : Context} (h : Assembled s)
    (hc : c.buffers.length = c.next ∧ 1 ≤ c.next ∧ c.next ≤ 7)
    (hother : ∀ j d, i ≠ j → slotAt s.asu.contexts j = some d → d.sender ≠ c.sender) : Assembled (setContext i c s) :=
  ⟨h.1.set hc hother, h.2.of_queues rfl rfl⟩

/-! ### Completion (R60 to R65) -/

theorem assembled_placeRecord (i : Nat) (c : Context) (stamp : Stamp) (h : Assembled s) (hroom : s.asu.rcq.length < 16) :
    Assembled (placeRecord i c stamp s) := by
  obtain ⟨hcontexts, hrcq, hexq, haccepted⟩ := h
  refine ⟨hcontexts.set_none i, ?_, hexq, fun r hr => ?_⟩
  · simpa [placeRecord, vacate] using hroom
  · rcases List.mem_append.mp hr with hr | hr
    · exact haccepted r hr
    · rw [List.mem_singleton.mp hr]
      rfl

theorem assembled_turnAway (i : Nat) (c : Context) (index : Nat) (stamp : Stamp) (h : Assembled s) :
    Assembled (turnAway i c index stamp s) := assembled_abandon i c (assembled_raiseException _ h)

theorem assembled_answered (c : Context) (d : Digest) (v : Verdict) (h : Assembled s) :
    Assembled (rememberDelivered c d v (offerIfConfirm c d v s)) := h.of_asu (by simp)

theorem assembled_deliverPartActed (i : Nat) (c : Context) (d : Digest) (v : Verdict) (index : Nat) (stamp : Stamp) (h : Assembled s) :
    Assembled (deliverPartActed i c d v index stamp s) := by
  have hanswered := assembled_answered c d v h
  unfold deliverPartActed
  dsimp only
  split
  · split
    · rename_i hroom
      exact assembled_placeRecord i c stamp hanswered (of_decide_eq_true hroom)
    · exact assembled_turnAway i c index stamp hanswered
  · exact assembled_abandon i c hanswered

theorem assembled_deliverProcessorActed (i : Nat) (c : Context) (d : Digest) (v : Verdict) (index : Nat) (stamp : Stamp)
    (h : Assembled s) : Assembled (deliverProcessorActed i c d v index stamp s) := by
  unfold deliverProcessorActed
  split
  · split
    · rename_i hroom
      exact assembled_answered c d v (assembled_placeRecord i c stamp h (of_decide_eq_true hroom))
    · exact assembled_turnAway i c index stamp h
  · exact assembled_abandon i c (assembled_answered c d v h)

theorem assembled_completeCall (i : Nat) (c : Context) (index : Nat) (stamp : Stamp) (h : Assembled s) :
    Assembled (completeCall i c index stamp s) := by
  unfold completeCall
  split
  · exact assembled_abandon i c (assembled_raiseException _ h)
  · dsimp only
    split
    · unfold completeDuplicate
      dsimp only
      split <;> exact (assembled_abandon i c h).of_asu (by simp)
    · have hdecided : Assembled (decideVerdict c.sender c.callType s).2 := h.of_asu (by simp)
      unfold completeNew
      dsimp only
      split
      · exact assembled_deliverPartActed i c _ _ index stamp hdecided
      · exact assembled_deliverProcessorActed i c _ _ index stamp hdecided

/-! ### Fragments and aging (R55 to R58, R70, R71) -/

/-- A sender with no context starts one. -/
theorem assembled_startCall (b : Burst) (stamp : Stamp) (h : Assembled s)
    (hnew : ∀ j d, slotAt s.asu.contexts j = some d → d.sender ≠ b.sender) : Assembled (startCall b stamp s) := by
  unfold startCall
  split
  · exact assembled_raiseException _ h
  · split
    · exact assembled_raiseException _ h
    · rename_i i _ buffer _ _
      have htaken : Assembled (takeBuffer buffer b.body s) := h.of_asu rfl
      dsimp only
      split
      · exact (assembled_raiseException _ htaken).of_asu rfl
      · split
        · exact assembled_completeCall _ _ _ stamp htaken
        · exact assembled_setContext htaken ⟨rfl, Nat.le_refl 1, Nat.le_of_ble_eq_true rfl⟩ fun j d _ hd => hnew j d hd

/-- An older call of the sender's is superseded first, so that the sender never has two contexts (R55). -/
theorem assembled_fragmentZero (b : Burst) (stamp : Stamp) (h : Assembled s) : Assembled (fragmentZero b stamp s) := by
  unfold fragmentZero
  split
  · rename_i i c hc
    obtain ⟨hslot, hsender⟩ := contextOf_some hc
    split
    · exact h.of_asu rfl
    · refine assembled_startCall b stamp (assembled_abandon i c (assembled_raiseException _ h)) fun j d hd hsame => ?_
      rw [abandon_contexts, raiseException_contexts] at hd
      obtain ⟨hij, hd⟩ := slotAt_of_set_none hd
      exact hij (h.1.sender i j c d hslot hd (hsender.trans hsame.symm))
  · rename_i hnone
    refine assembled_startCall b stamp h fun j d hd hsame => ?_
    simpa [hsame] using findSlot_none hnone hd

theorem assembled_takeInOrder {i : Nat} {c : Context} (b : Burst) (stamp : Stamp) (h : Assembled s)
    (hslot : slotAt s.asu.contexts i = some c) : Assembled (takeInOrder i c b c.next stamp s) := by
  unfold takeInOrder
  split
  · exact assembled_abandon i c (assembled_raiseException _ h)
  · rename_i hfits
    split
    · exact assembled_abandon i c (assembled_raiseException _ h)
    · rename_i buffer _ _
      have htaken : Assembled (takeBuffer buffer b.body s) := h.of_asu rfl
      obtain ⟨hbuffers, hlow, hhigh⟩ := h.1.each i c hslot
      dsimp only
      split
      · exact assembled_completeCall _ _ _ stamp htaken
      · rename_i hlast
        have hnext : c.next ≠ 7 := fun h7 => hfits ⟨h7, by simpa using hlast⟩
        refine assembled_setContext htaken ⟨by simp [hbuffers], by simp, by dsimp only; omega⟩ fun j d hij hd hsame => ?_
        exact hij (h.1.sender i j c d hslot hd hsame.symm)

theorem assembled_laterFragment (b : Burst) (index : Nat) (stamp : Stamp) (h : Assembled s) :
    Assembled (laterFragment b index stamp s) := by
  unfold laterFragment
  split
  · exact h.of_asu rfl
  · rename_i i c hc
    obtain ⟨hslot, -⟩ := contextFor_some hc
    split
    · exact h.of_asu rfl
    · split
      · exact assembled_abandon i c (assembled_raiseException _ h)
      · obtain rfl : index = c.next := by omega
        exact assembled_takeInOrder b stamp h hslot

theorem assembled_callArrived (b : Burst) (stamp : Stamp) (h : Assembled s) : Assembled (callArrived b stamp s) := by
  unfold callArrived
  split
  · split
    · exact assembled_fragmentZero b stamp h
    · exact assembled_laterFragment b _ stamp h
  · split
    · exact h.of_asu (by simp)
    · exact h

theorem assembled_classify (octets : List Byte) (stamp : Stamp) (h : Assembled s) : Assembled (classify octets stamp s) := by
  obtain ⟨heard, ⟨rxc, crowdedHeard, rfl⟩, hcases⟩ := classify_cases octets stamp s
  have hheard : Assembled (heardState rxc crowdedHeard s) := h.of_asu rfl
  rcases hcases with heq | heq | heq | ⟨-, -, heq⟩
  · exact heq ▸ hheard
  · exact heq ▸ hheard.of_asu rfl
  · exact heq ▸ hheard.of_asu (by simp)
  · have hpeer : Assembled (peerStep (readBurst octets) stamp (heardState rxc crowdedHeard s)) := hheard.of_asu (by simp)
    rw [heq]
    cases hk : (readBurst octets).kind with
    | call => exact routeHomeBurst_call stamp _ hk ▸ assembled_callArrived _ stamp hpeer
    | readback =>
      rw [routeHomeBurst_readback stamp _ hk]
      split
      · exact hpeer.of_asu (by simp)
      · exact hpeer
    | presence => exact routeHomeBurst_presence stamp _ hk ▸ hpeer.of_asu (by simp)
    | allstop => exact routeHomeBurst_allstop stamp _ hk ▸ hpeer.of_asu rfl

theorem assembled_ageContext (i : Nat) (h : Assembled s) : Assembled (ageContext i s) := by
  rcases ageContext_cases i s with ⟨-, heq⟩ | ⟨c, hc, ⟨-, heq⟩ | ⟨-, heq⟩⟩
  · rwa [heq]
  · rw [heq]
    exact assembled_abandon i c (assembled_raiseException _ h)
  · rw [heq]
    exact assembled_setContext h (h.1.each i c hc) fun j d hij hd hsame => hij (h.1.sender i j c d hc hd hsame.symm)

theorem assembled_ageContexts (h : Assembled s) : Assembled (ageContexts s) := by
  unfold ageContexts
  generalize List.range s.asu.contexts.length = slots
  induction slots generalizing s with
  | nil => exact h
  | cons i rest ih => exact ih (assembled_ageContext i h)

/-! ### Team, completions, start-up (R73, R74, R109, R110) -/

theorem assembled_clearContexts (h : Assembled s) : Assembled (clearContexts s) :=
  ⟨contextsFit_of_empty (by simpa using h.1.length) (by simp), h.2.of_queues rfl rfl⟩

theorem assembled_clearTeam (h : Assembled s) : Assembled (clearTeam s) := by
  have hunheld : Assembled (makeUnheld { s with tmu.peers := [] }) := h.of_asu (by simp)
  unfold clearTeam
  exact (assembled_clearContexts hunheld).of_asu (by simp)

theorem assembled_reset (hasu : t.asu = Asu.reset) : Assembled t := by
  refine ⟨?_, ?_⟩
  · rw [hasu]
    exact contextsFit_of_empty rfl (by simp [Asu.reset])
  · simp [ReceiveQueuesSound, hasu, Asu.reset]

theorem assembled_presenceCompleted (flag : PresenceFlag) (h : Assembled s) : Assembled (presenceCompleted flag s) := by
  cases flag with
  | normal => exact h
  | joining => exact h.of_asu rfl
  | leaving =>
    unfold presenceCompleted
    dsimp only
    split
    · exact (assembled_clearTeam h).of_asu rfl
    · exact h

theorem assembled_onAirCompleted (h : Assembled s) : Assembled (onAirCompleted s) := by
  unfold onAirCompleted
  split
  · rename_i b _
    have hreported : Assembled (reportCompletion b.source { s with cau.onAir := none }) := by
      unfold reportCompletion
      dsimp only
      split
      · exact h.of_asu (by simp)
      · exact h.of_asu rfl
      · exact assembled_presenceCompleted _ (h.of_asu rfl)
      · exact h.of_asu (by simp)
    exact hreported.of_asu (by simp)
  · exact h

theorem assembled_joined (team : Team) (h : Assembled s) : Assembled (joined team s) := by
  have hcleared : Assembled (clearTeam { s with tmu.leavePending := false }) := assembled_clearTeam (h.of_asu rfl)
  unfold joined
  exact hcleared.of_asu (by simp)

theorem restartRunning_asu (s : State) : (restartRunning s).asu = Asu.reset := rfl

theorem assembled_octetRead (x : Byte) (h : Assembled s) : Assembled (octetRead x s) := by
  unfold octetRead checkBlock
  dsimp only
  split
  · split
    · exact h.of_asu rfl
    · split
      · exact h.of_asu rfl
      · exact assembled_reset rfl
  · exact h.of_asu rfl

/-! ### Every effect -/

theorem assembled_quiet {effect : State} (hq : Quiet s effect) (h : Assembled s) : Assembled effect := by
  cases hq with
  | reset => exact assembled_reset rfl
  | load => exact h.of_asu rfl
  | noMemory => exact h.of_asu rfl
  | aging => exact assembled_ageContexts (h.of_queue rfl rfl rfl)
  | takeCall r rest _ hr =>
    obtain ⟨hcontexts, hrcq, hexq, haccepted⟩ := h
    rw [hr] at hrcq haccepted
    exact ⟨hcontexts, Nat.le_of_succ_le hrcq, hexq, fun x hx => haccepted x (List.mem_cons_of_mem r hx)⟩
  | takeException =>
    obtain ⟨hcontexts, hrcq, hexq, haccepted⟩ := h
    exact ⟨hcontexts, hrcq, by simpa using Nat.le_succ_of_le hexq, haccepted⟩
  | nothing => exact h
  | _ => exact h.of_asu (by simp)

theorem assembled_stirring {effect : State} (hs : Stirring s effect) (h : Assembled s) : Assembled effect := by
  cases hs with
  | octet x => exact assembled_octetRead x h
  | burst octets stamp => exact assembled_classify octets stamp h
  | completion => exact assembled_onAirCompleted h
  | join team => exact assembled_joined team h
  | restart => exact assembled_reset (restartRunning_asu s)
  | _ => exact h.of_asu (by simp)

theorem assembled_tick (h : Assembled s) : Assembled (tick s) := by
  unfold tick
  dsimp only
  split
  · exact h.of_queue rfl rfl rfl
  · exact h.of_asu rfl

theorem assembled_looksInside : LooksInside Assembled :=
  ⟨fun _ h => h.of_asu rfl, fun _ _ h => h.of_asu rfl, fun _ _ h => h.of_asu rfl⟩

theorem assembled_step (h : Assembled s) (hstep : step s = .next t) : Assembled t :=
  step_keeps_of_effects assembled_looksInside (fun _ => assembled_tick) (fun _ _ => assembled_quiet)
    (fun _ _ hs h => (assembled_stirring hs h).of_asu (by simp)) h hstep

/-! ### The buffer contents (R75) -/

theorem BufferMemorySound.of_memory (h : BufferMemorySound s) (hm : t.bpl.memory = s.bpl.memory) : BufferMemorySound t := by
  unfold BufferMemorySound at h ⊢
  rwa [hm]

theorem memorySound_empty (hm : t.bpl.memory = []) : BufferMemorySound t := by simp [BufferMemorySound, hm, Memory.wf, Memory.wfFrom]

theorem memorySound_takeBuffer (buffer : BufferNumber) (body : List Byte) (h : BufferMemorySound s) :
    BufferMemorySound (takeBuffer buffer body s) :=
  ⟨Memory.wf_writeBuffer buffer body h.1, Memory.writeBuffer_below buffer body h.2⟩

theorem memorySound_startCall (b : Burst) (stamp : Stamp) (h : BufferMemorySound s) : BufferMemorySound (startCall b stamp s) := by
  unfold startCall
  split
  · exact h.of_memory (by simp)
  · split
    · exact h.of_memory (by simp)
    · rename_i buffer _ _
      have htaken := memorySound_takeBuffer buffer b.body h
      dsimp only
      split
      · exact htaken.of_memory (by simp)
      · split <;> exact htaken.of_memory (by simp)

theorem memorySound_laterFragment (b : Burst) (index : Nat) (stamp : Stamp) (h : BufferMemorySound s) :
    BufferMemorySound (laterFragment b index stamp s) := by
  unfold laterFragment
  split
  · exact h.of_memory (by simp)
  · split
    · exact h.of_memory (by simp)
    · split
      · exact h.of_memory (by simp)
      · unfold takeInOrder
        split
        · exact h.of_memory (by simp)
        · split
          · exact h.of_memory (by simp)
          · rename_i buffer _ _
            have htaken := memorySound_takeBuffer buffer b.body h
            dsimp only
            split <;> exact htaken.of_memory (by simp)

theorem memorySound_callArrived (b : Burst) (stamp : Stamp) (h : BufferMemorySound s) : BufferMemorySound (callArrived b stamp s) := by
  unfold callArrived
  split
  · split
    · unfold fragmentZero
      split
      · split
        · exact h.of_memory (by simp)
        · exact memorySound_startCall b stamp (h.of_memory (by simp))
      · exact memorySound_startCall b stamp h
    · exact memorySound_laterFragment b _ stamp h
  · split
    · exact h.of_memory (by simp)
    · exact h

theorem memorySound_classify (octets : List Byte) (stamp : Stamp) (h : BufferMemorySound s) :
    BufferMemorySound (classify octets stamp s) := by
  obtain ⟨heard, ⟨rxc, crowdedHeard, rfl⟩, hcases⟩ := classify_cases octets stamp s
  have hheard : BufferMemorySound (heardState rxc crowdedHeard s) := h.of_memory rfl
  rcases hcases with heq | heq | heq | ⟨-, -, heq⟩
  · exact heq ▸ hheard
  · exact heq ▸ hheard.of_memory rfl
  · exact heq ▸ hheard.of_memory (by simp)
  · have hpeer : BufferMemorySound (peerStep (readBurst octets) stamp (heardState rxc crowdedHeard s)) := hheard.of_memory (by simp)
    rw [heq]
    cases hk : (readBurst octets).kind with
    | call => exact routeHomeBurst_call stamp _ hk ▸ memorySound_callArrived _ stamp hpeer
    | readback =>
      rw [routeHomeBurst_readback stamp _ hk]
      split
      · exact hpeer.of_memory (by simp)
      · exact hpeer
    | presence => exact routeHomeBurst_presence stamp _ hk ▸ hpeer.of_memory (by simp)
    | allstop => exact routeHomeBurst_allstop stamp _ hk ▸ hpeer.of_memory rfl

theorem acceptOrder_memory (slot : Nat) (sub : Submission) (s : State) : (acceptOrder slot sub s).bpl.memory =
    writeBuffers s.bpl.memory (newOrder sub s).buffers
      (bodies (fragmentCount sub.length) (callOctets sub.callType sub.length sub.data)) := by
  unfold acceptOrder
  simp

theorem memorySound_acceptOrder (slot : Nat) (sub : Submission) (h : BufferMemorySound s) :
    BufferMemorySound (acceptOrder slot sub s) := by
  unfold BufferMemorySound
  rw [acceptOrder_memory]
  exact ⟨Memory.wf_writeBuffers _ _ h.1, Memory.writeBuffers_below _ _ h.2⟩

theorem memorySound_octetRead (x : Byte) (h : BufferMemorySound s) : BufferMemorySound (octetRead x s) := by
  unfold octetRead checkBlock
  dsimp only
  split
  · split
    · exact h.of_memory rfl
    · split <;> exact h.of_memory rfl
  · exact h.of_memory rfl

theorem restartRunning_memory (s : State) : (restartRunning s).bpl.memory = s.bpl.memory := by
  unfold restartRunning
  dsimp only
  split <;> simp

theorem memorySound_quiet {effect : State} (hq : Quiet s effect) (h : BufferMemorySound s) : BufferMemorySound effect := by
  cases hq with
  | reset => exact memorySound_empty rfl
  | load => exact h.of_memory rfl
  | noMemory => exact h.of_memory rfl
  | aging =>
    have hframe := ageContexts_frame { s with asu.agingMs := s.asu.agingMs - 100 }
    exact h.of_memory (by simp [hframe])
  | nothing => exact h
  | _ => exact h.of_memory (by simp)

theorem memorySound_stirring {effect : State} (hs : Stirring s effect) (h : BufferMemorySound s) : BufferMemorySound effect := by
  cases hs with
  | octet x => exact memorySound_octetRead x h
  | burst octets stamp => exact memorySound_classify octets stamp h
  | submit slot sub => exact memorySound_acceptOrder slot sub h
  | join team =>
    unfold joined
    exact h.of_memory (by simp)
  | restart => exact h.of_memory (restartRunning_memory s)
  | _ => exact h.of_memory (by simp)

theorem memorySound_looksInside : LooksInside BufferMemorySound := ⟨fun _ h => h, fun _ _ h => h, fun _ _ h => h⟩

theorem memorySound_tick (h : BufferMemorySound s) : BufferMemorySound (tick s) := by
  unfold tick
  dsimp only
  split <;> exact h

theorem memorySound_step (h : BufferMemorySound s) (hstep : step s = .next t) : BufferMemorySound t :=
  step_keeps_of_effects memorySound_looksInside (fun _ => memorySound_tick) (fun _ _ => memorySound_quiet)
    (fun _ _ hs h => (memorySound_stirring hs h).of_memory (by simp)) h hstep

end

/-- Settles O52. -/
theorem assemblyAndBufferContentsStaySound : Obligations.AssemblyAndBufferContentsStaySound :=
  ⟨fun _ _ h hstep => assemblySound_iff.mpr (assembled_step (assemblySound_iff.mp h) hstep), fun _ _ => memorySound_step⟩

end Sys2Proof.Machine
end

section
/-! PROOF. CONFIGURING and HALTED (02 to 09, the sections of the part states): outside RUNNING only a load, the filtered inputs, a status
read and a reset act, and none of them moves a block off its first column. -/

namespace Sys2Proof.Machine

theorem atRest_of_running {s : State} (h : running s = true) : AtRest s := fun hn => absurd (of_decide_eq_true h) hn

theorem atRest_of_cfl_running {s t : State} (h : running s = true) (hcfl : t.cfl = s.cfl) : AtRest t :=
  atRest_of_running (running_of_cfl hcfl ▸ h)

/-- Every count and timer ends in RUNNING only. -/
theorem running_of_due {s : State} {p : Bool} (h : (running s && p) = true) : running s = true := (Bool.and_eq_true_iff.mp h).1

theorem loading_not_running {s : State} (h : loading s = true) : s.cfl.part ≠ .running := by
  intro hr
  simp [loading, hr] at h

theorem arbitrate_of_not_running {s : State} (h : s.cfl.part ≠ .running) : arbitrate s = s := by
  rcases arbitrate_cases s with heq | ⟨source, hr, -⟩
  · exact heq
  · exact absurd (of_decide_eq_true hr) h

theorem atRest_arbitrate {s : State} (h : AtRest s) : AtRest (arbitrate s) := by
  by_cases hr : s.cfl.part = .running
  · exact atRest_of_cfl_running (s := s) (decide_eq_true hr) (by simp)
  · rwa [arbitrate_of_not_running hr]

/-- A load ends in HALTED or in RUNNING, or goes on (R159 to R163). -/
theorem atRest_octetRead (x : Byte) {s : State} (h : AtRest s) (hl : loading s = true) : AtRest (octetRead x s) := by
  obtain ⟨hforce, hrest⟩ := h (loading_not_running hl)
  unfold octetRead checkBlock
  dsimp only
  split
  · split
    · exact fun _ => ⟨rfl, hrest⟩
    · split
      · exact fun _ => ⟨rfl, hrest⟩
      · exact atRest_of_running rfl
  · exact fun _ => ⟨hforce, hrest⟩

theorem atRest_quiet {s effect : State} (hq : Quiet s effect) (h : AtRest s) : AtRest effect := by
  cases hq with
  | reset => exact fun _ => ⟨rfl, rfl, rfl, rfl, rfl, rfl, rfl, rfl, rfl, rfl, rfl⟩
  | load hr => exact fun _ => ⟨rfl, (h hr).2⟩
  | noMemory hl => exact fun _ => ⟨rfl, (h (loading_not_running hl)).2⟩
  | nothing => exact h
  | key pressed =>
    intro hr
    obtain ⟨hforce, hrx, hcau, hasu, hfree, hheld, hodu, htmu, hstu, hrest⟩ := h hr
    refine ⟨hforce, hrx, hcau, hasu, hfree, hheld, hodu, htmu, ?_, hrest⟩
    rw [hstu]
  | cab active =>
    intro hr
    obtain ⟨hforce, hrx, hcau, hasu, hfree, hheld, hodu, htmu, hstu, hrest⟩ := h hr
    refine ⟨hforce, hrx, hcau, hasu, hfree, hheld, hodu, htmu, ?_, hrest⟩
    rw [hstu]
  | flags =>
    intro hr
    obtain ⟨hforce, hrx, hcau, hasu, hfree, hheld, hodu, htmu, hstu, -, hrange⟩ := h hr
    exact ⟨hforce, hrx, hcau, hasu, hfree, hheld, hodu, htmu, hstu, rfl, hrange⟩
  | aging hdue =>
    have hframe := ageContexts_frame { s with asu.agingMs := s.asu.agingMs - 100 }
    exact atRest_of_cfl_running (running_of_due hdue) (by simp [hframe])
  | silence hdue => exact atRest_of_cfl_running (running_of_due hdue) (by simp)
  | offer hdue => exact atRest_of_cfl_running (running_of_due hdue) (by simp)
  | hold hdue => exact atRest_of_cfl_running (running_of_due (Bool.and_eq_true_iff.mp hdue).1) rfl
  | _ => exact atRest_of_cfl_running (s := s) ‹running s = true› (by simp)

theorem atRest_stirring {s effect : State} (hs : Stirring s effect) (h : AtRest s) : AtRest effect := by
  cases hs with
  | octet x hl => exact atRest_octetRead x h hl
  | pace hdue => exact atRest_of_cfl_running (running_of_due hdue) (by simp)
  | gap hdue => exact atRest_of_cfl_running (running_of_due hdue) (by simp)
  | slot hdue => exact atRest_of_cfl_running (running_of_due hdue) (by simp)
  | completion hdue => exact atRest_of_cfl_running (running_of_due hdue) (by simp)
  | force hdue => exact atRest_of_cfl_running (running_of_due hdue) (by simp)
  | wait slot hdue => exact atRest_of_cfl_running (running_of_due hdue) (by simp)
  | presence hdue => exact atRest_of_cfl_running (running_of_due hdue) (by simp)
  | join team hr =>
    unfold joined
    exact atRest_of_cfl_running hr (by simp)
  | restart hr => exact atRest_of_cfl_running hr (restartRunning_cfl s)
  | _ => exact atRest_of_cfl_running (s := s) ‹running s = true› (by simp)

theorem atRest_tick {s : State} (h : AtRest s) : AtRest (tick s) := by
  unfold tick
  dsimp only
  split
  · rename_i hr
    exact atRest_of_cfl_running hr rfl
  · exact h

theorem atRest_looksInside : LooksInside AtRest := ⟨fun _ h => h, fun _ _ h => h, fun _ _ h => h⟩

/-- Settles O56. -/
theorem outsideRunningThePartIsAtRest : Obligations.OutsideRunningThePartIsAtRest := fun _ _ h hstep =>
  step_keeps_of_effects atRest_looksInside (fun _ => atRest_tick) (fun _ _ => atRest_quiet)
    (fun _ _ hs h => atRest_arbitrate (atRest_stirring hs h)) h hstep

end Sys2Proof.Machine
end

section
/-! PROOF. The peer table and the control of a locomotive (07 sections 7.2 and 7.5, 08 section 8.1): every effect keeps the table's keys,
NO_HOLDER with UNHELD, and the holder's portable entry. -/

namespace Sys2Proof.Machine

/-! ### What the laws of the team look at -/

/-- R118 on a locomotive. -/
structure HolderFits (s : State) : Prop where
  noHolder : s.stu.causes.noHolder = true ↔ s.tmu.control = .unheld
  holder : ∀ h, s.tmu.control.holder = some h → h ≠ s.config.station ∧ ∃ p ∈ s.tmu.peers, p.station = h ∧ p.role = .portable

/-- R118, R128 on a portable. -/
def NoControl (s : State) : Prop := s.tmu.control = .unheld ∧ s.stu.causes = {}

theorem isLocomotive_iff {s : State} : isLocomotive s = true ↔ s.config.role = .locomotive := by simp [isLocomotive]

theorem controlSound_iff {s : State} : ControlSound s ↔
    (s.cfl.part = .running → (isLocomotive s = true → HolderFits s) ∧ (isLocomotive s = false → NoControl s)) := by
  unfold ControlSound
  refine imp_congr_right fun _ => ?_
  cases hr : s.config.role with
  | locomotive => exact ⟨fun ⟨hn, hh⟩ => ⟨fun _ => ⟨hn, hh⟩, by simp [isLocomotive, hr]⟩, fun h =>
      have hfits := h.1 (isLocomotive_iff.mpr hr)
      ⟨hfits.noHolder, hfits.holder⟩⟩
  | portable => exact ⟨fun h => ⟨by simp [isLocomotive, hr], fun _ => h⟩, fun h => h.2 (by simp [isLocomotive, hr])⟩

section
variable {s t : State}

theorem TeamSound.fits (h : TeamSound s) (hr : running s = true) (hl : isLocomotive s = true) : HolderFits s :=
  (controlSound_iff.mp h.2 (of_decide_eq_true hr)).1 hl

theorem TeamSound.noControl (h : TeamSound s) (hr : running s = true) (hl : isLocomotive s = false) : NoControl s :=
  (controlSound_iff.mp h.2 (of_decide_eq_true hr)).2 hl

theorem PeersSound.of_peers (h : PeersSound s) (hcfl : t.cfl = s.cfl) (hp : t.tmu.peers = s.tmu.peers) : PeersSound t := by
  unfold PeersSound at h ⊢
  rwa [hp, hcfl, config_of_cfl hcfl]

theorem HolderFits.of_agree (h : HolderFits s) (hcfl : t.cfl = s.cfl) (hp : t.tmu.peers = s.tmu.peers)
    (hc : t.tmu.control = s.tmu.control) (hn : t.stu.causes.noHolder = s.stu.causes.noHolder) : HolderFits t := by
  obtain ⟨hnone, hholder⟩ := h
  refine ⟨by rwa [hn, hc], ?_⟩
  rwa [hc, hp, config_of_cfl hcfl]

theorem TeamSound.of_agree (h : TeamSound s) (hcfl : t.cfl = s.cfl) (htmu : t.tmu.peers = s.tmu.peers ∧ t.tmu.control = s.tmu.control)
    (hstu : t.stu.causes = s.stu.causes) : TeamSound t := by
  refine ⟨h.1.of_peers hcfl htmu.1, controlSound_iff.mpr fun hr => ?_⟩
  rw [hcfl] at hr
  obtain ⟨hloc, hport⟩ := controlSound_iff.mp h.2 hr
  rw [isLocomotive_of_cfl hcfl]
  exact ⟨fun hl => (hloc hl).of_agree hcfl htmu.1 htmu.2 (by rw [hstu]), fun hl => ⟨htmu.2 ▸ (hport hl).1, hstu ▸ (hport hl).2⟩⟩

/-! ### Causes other than NO_HOLDER (R128, R129) -/

/-- A locomotive's other causes come and go, a portable's set stays empty. -/
theorem teamSound_setCauses {c : Causes} (h : TeamSound s) (hc : c.noHolder = s.stu.causes.noHolder) : TeamSound (setCauses c s) := by
  rcases setCauses_cases c s with ⟨hl, -, heq⟩ | ⟨-, heq⟩
  · rw [heq]
    refine ⟨h.1, controlSound_iff.mpr fun hr => ⟨fun hl => ?_, fun hn => ?_⟩⟩
    · exact (h.fits (decide_eq_true hr) hl).of_agree rfl rfl rfl hc
    · exact absurd (hl.symm.trans hn) (by decide)
  · rwa [heq]

/-! ### The peer table (R111, R112) -/

/-- A change of the entries that leaves stations and roles alone. -/
theorem teamSound_mapPeers {f : Peer → Peer} (h : TeamSound s) (hf : ∀ p, (f p).station = p.station ∧ (f p).role = p.role) :
    TeamSound { s with tmu.peers := s.tmu.peers.map f } := by
  obtain ⟨⟨hlength, hsorted, hown⟩, hcontrol⟩ := h
  refine ⟨⟨by simpa using hlength, ?_, ?_⟩, controlSound_iff.mpr fun hr => ?_⟩
  · rw [List.pairwise_map]
    exact hsorted.imp fun hlt => by rwa [(hf _).1, (hf _).1]
  · rintro hr p hp
    obtain ⟨q, hq, rfl⟩ := List.mem_map.mp hp
    exact (hf q).1 ▸ hown hr q hq
  · obtain ⟨hloc, hport⟩ := controlSound_iff.mp hcontrol hr
    refine ⟨fun hl => ⟨(hloc hl).noHolder, fun station hstation => ?_⟩, hport⟩
    obtain ⟨hother, p, hp, hps, hpr⟩ := (hloc hl).holder station hstation
    exact ⟨hother, f p, List.mem_map_of_mem hp, (hf p).1 ▸ hps, (hf p).2 ▸ hpr⟩

theorem teamSound_updatePeer (station : Station) {f : Peer → Peer} (h : TeamSound s)
    (hf : ∀ p, (f p).station = p.station ∧ (f p).role = p.role) : TeamSound (updatePeer station f s) := by
  refine teamSound_mapPeers h fun p => ?_
  split
  · exact hf p
  · exact ⟨rfl, rfl⟩

theorem peersSound_removePeer (station : Station) (h : PeersSound s) : PeersSound (removePeer station s) := by
  obtain ⟨hlength, hsorted, hown⟩ := h
  exact ⟨(List.length_filter_le _ _).trans hlength, hsorted.filter _, fun hr p hp => hown hr p (List.mem_filter.mp hp).1⟩

/-- An entry other than the holder's is taken out. -/
theorem teamSound_removePeer (station : Station) (h : TeamSound s)
    (hholder : isLocomotive s = true → s.tmu.control.holder ≠ some station) : TeamSound (removePeer station s) := by
  refine ⟨peersSound_removePeer station h.1, controlSound_iff.mpr fun hr => ?_⟩
  obtain ⟨hloc, hport⟩ := controlSound_iff.mp h.2 hr
  refine ⟨fun hl => ⟨(hloc hl).noHolder, fun holder hh => ?_⟩, hport⟩
  obtain ⟨hother, p, hp, hps, hpr⟩ := (hloc hl).holder holder hh
  refine ⟨hother, p, List.mem_filter.mpr ⟨hp, decide_eq_true fun heq => hholder hl ?_⟩, hps, hpr⟩
  rw [← heq, hps]
  exact hh

theorem teamSound_addPeer {new : Peer} (h : TeamSound s) (hroom : s.tmu.peers.length < 16)
    (hnew : ∀ p ∈ s.tmu.peers, p.station ≠ new.station) (hown : new.station ≠ s.config.station) : TeamSound (addPeer new s) := by
  obtain ⟨⟨-, hsorted, hothers⟩, hcontrol⟩ := h
  refine ⟨⟨?_, insertPeer_pairwise hnew hsorted, fun hr p hp => ?_⟩, controlSound_iff.mpr fun hr => ?_⟩
  · simpa [addPeer, insertPeer_length] using hroom
  · rcases mem_insertPeer.mp hp with rfl | hp
    · exact hown
    · exact hothers hr p hp
  · obtain ⟨hloc, hport⟩ := controlSound_iff.mp hcontrol hr
    refine ⟨fun hl => ⟨(hloc hl).noHolder, fun holder hh => ?_⟩, hport⟩
    obtain ⟨hother, p, hp, hrest⟩ := (hloc hl).holder holder hh
    exact ⟨hother, p, mem_insertPeer.mpr (.inr hp), hrest⟩

/-- An entry that stands in the table leaves room when it is taken out. -/
theorem removePeer_length_lt {p : Peer} (hp : p ∈ s.tmu.peers) : (removePeer p.station s).tmu.peers.length < s.tmu.peers.length :=
  List.length_filter_lt_length_iff_exists.mpr ⟨p, hp, by simp⟩

/-- R112: a full table gives up an entry that is not the holder's, or takes no new one. -/
theorem teamSound_enterPeer (b : Burst) (stamp : Stamp) (h : TeamSound s) (hnew : ∀ p ∈ s.tmu.peers, p.station ≠ b.sender)
    (hown : b.sender ≠ s.config.station) : TeamSound (enterPeer b stamp s) := by
  rcases enterPeer_cases b stamp s with ⟨hroom, heq⟩ | ⟨-, p, hp, heq⟩ | ⟨-, -, heq⟩
  · exact heq ▸ teamSound_addPeer h hroom hnew hown
  · obtain ⟨hmem, hevictable⟩ := evictionCandidate_some hp
    have hnotHolder : isLocomotive s = true → s.tmu.control.holder ≠ some p.station := by
      intro hl
      simpa [evictable, hl] using (Bool.and_eq_true_iff.mp hevictable).2
    rw [heq]
    exact teamSound_addPeer (teamSound_removePeer p.station h hnotHolder) (Nat.lt_of_lt_of_le (removePeer_length_lt hmem) h.1.1)
      (fun q hq => hnew q (List.mem_filter.mp hq).1) hown
  · exact heq ▸ h.of_agree rfl ⟨rfl, rfl⟩ rfl

/-! ### Control (R118, R121, R122) -/

/-- A locomotive that becomes UNHELD is sound whatever stood before; a portable has no control. -/
theorem teamSound_makeUnheld (hp : PeersSound s) (hport : running s = true → isLocomotive s = false → NoControl s) :
    TeamSound (makeUnheld s) := by
  rcases makeUnheld_cases s with ⟨hl, htmu, hcauses⟩ | ⟨hl, heq⟩
  · have hcfl : (makeUnheld s).cfl = s.cfl := by simp
    refine ⟨hp.of_peers hcfl (by rw [htmu]), controlSound_iff.mpr fun _ => ⟨fun _ => ⟨?_, ?_⟩, fun hn => ?_⟩⟩
    · simp [htmu, hcauses]
    · simp [htmu, Control.holder]
    · rw [isLocomotive_of_cfl hcfl, hl] at hn
      cases hn
  · rw [heq]
    refine ⟨hp, controlSound_iff.mpr fun hr => ⟨fun hloc => absurd (hl.symm.trans hloc) (by decide), hport (decide_eq_true hr)⟩⟩

/-- The control state changes and the holder does not. -/
theorem teamSound_setControl {control : Control} (h : TeamSound s) (hl : isLocomotive s = true) (hunheld : control ≠ .unheld)
    (hholder : control.holder = s.tmu.control.holder) : TeamSound { s with tmu.control := control } := by
  refine ⟨h.1, controlSound_iff.mpr fun hr => ⟨fun _ => ?_, fun hn => absurd (hl.symm.trans hn) (by decide)⟩⟩
  obtain ⟨hnone, hsome⟩ := h.fits (decide_eq_true hr) hl
  refine ⟨?_, ?_⟩
  · have hheld : s.tmu.control ≠ .unheld := by
      intro hc
      rw [hc] at hholder
      cases control <;> simp [Control.holder] at hholder hunheld
    exact iff_of_false (fun hn => hheld (hnone.mp hn)) hunheld
  · rwa [hholder]

/-- A portable of the table becomes holder (R121). -/
theorem holderFits_makeHolder {sender : Station} {p : Peer} (h : PeersSound s) (hr : running s = true) (hp : p ∈ s.tmu.peers)
    (hps : p.station = sender) (hrole : p.role = .portable) (hn : s.stu.causes.noHolder = false) : HolderFits (makeHolder sender s) := by
  refine ⟨by simp [makeHolder, hn], ?_⟩
  rintro _ ⟨rfl⟩
  exact ⟨hps ▸ h.2.2 (of_decide_eq_true hr) p hp, p, hp, hps, hrole⟩

theorem teamSound_takeVerdict (sender : Station) (h : TeamSound s) (hr : running s = true) (hl : isLocomotive s = true) :
    TeamSound (takeVerdict sender s).2 := by
  obtain ⟨hnone, -⟩ := h.fits hr hl
  have hmakes {t : State} (hcfl : t.cfl = s.cfl) (hpeers : t.tmu.peers = s.tmu.peers) (hfits : HolderFits t) : TeamSound t := by
    refine ⟨h.1.of_peers hcfl hpeers, controlSound_iff.mpr fun _ => ⟨fun _ => hfits, fun hn => ?_⟩⟩
    rw [isLocomotive_of_cfl hcfl, hl] at hn
    cases hn
  unfold takeVerdict
  split
  · exact h
  · rename_i p hpeer
    obtain ⟨hp, hps⟩ := findPeer_some hpeer
    split
    · exact h
    · rename_i hrole
      have hportable : p.role = .portable := by
        cases hrole' : p.role with
        | locomotive => exact absurd hrole' hrole
        | portable => rfl
      split
      · have htaken : (takeNoHolder (makeHolder sender s)) =
            { makeHolder sender s with
              stu.causes.noHolder := false
              tpt.flags.causesChanged := s.tpt.flags.causesChanged || s.stu.causes.noHolder } :=
          takeNoHolder_of_locomotive (s := makeHolder sender s) hl
        have hfits : HolderFits (makeHolder sender { s with stu.causes.noHolder := false }) :=
          holderFits_makeHolder (s := { s with stu.causes.noHolder := false }) h.1 hr hp hps hportable rfl
        rw [htaken]
        exact hmakes rfl rfl (hfits.of_agree rfl rfl rfl rfl)
      · split <;> exact h
      · rename_i hcontrol
        split
        · exact h
        · split
          · refine hmakes rfl rfl (holderFits_makeHolder h.1 hr hp hps hportable ?_)
            simpa [hcontrol] using hnone
          · exact h

theorem teamSound_decideVerdict (sender : Station) (callType : Byte) (h : TeamSound s) (hr : running s = true) :
    TeamSound (decideVerdict sender callType s).2 := by
  unfold decideVerdict
  split
  · rename_i hl
    split
    · exact h
    · exact h
    · exact teamSound_setCauses h rfl
    · dsimp only
      split
      · exact teamSound_setCauses h rfl
      · exact h
    · exact teamSound_takeVerdict sender h hr hl
    · unfold relinquishVerdict
      split
      · exact teamSound_makeUnheld h.1 h.noControl
      · exact h
    · exact h
  · exact h

/-! ### Calls (R59 to R65, R124, R125) -/

theorem teamSound_answered (c : Context) (d : Digest) (v : Verdict) (h : TeamSound s) :
    TeamSound (rememberDelivered c d v (offerIfConfirm c d v s)) := by
  have hoffered : TeamSound (offerIfConfirm c d v s) := h.of_agree (by simp) (by simp) (by simp)
  exact teamSound_updatePeer c.sender hoffered fun _ => ⟨rfl, rfl⟩

theorem teamSound_completeNew (i : Nat) (c : Context) (d : Digest) (index : Nat) (stamp : Stamp) (h : TeamSound s)
    (hr : running s = true) : TeamSound (completeNew i c d index stamp s) := by
  have hdecided := teamSound_decideVerdict c.sender c.callType h hr
  unfold completeNew
  dsimp only
  split
  · have hanswered := teamSound_answered c d (decideVerdict c.sender c.callType s).1 hdecided
    unfold deliverPartActed
    dsimp only
    split
    · split <;> exact hanswered.of_agree (by simp) (by simp) (by simp)
    · exact hanswered.of_agree (by simp) (by simp) (by simp)
  · unfold deliverProcessorActed
    split
    · split
      · exact teamSound_answered c d _ (hdecided.of_agree (by simp) (by simp) (by simp))
      · exact hdecided.of_agree (by simp) (by simp) (by simp)
    · exact (teamSound_answered c d (decideVerdict c.sender c.callType s).1 hdecided).of_agree (by simp) (by simp) (by simp)

theorem teamSound_completeCall (i : Nat) (c : Context) (index : Nat) (stamp : Stamp) (h : TeamSound s) (hr : running s = true) :
    TeamSound (completeCall i c index stamp s) := by
  unfold completeCall
  split
  · exact h.of_agree (by simp) (by simp) (by simp)
  · dsimp only
    split
    · have hoffered (d : Digest) (v : Verdict) : TeamSound (offerIfConfirm c d v (countDuplicate (abandon i c s))) :=
        h.of_agree (by simp) (by simp) (by simp)
      unfold completeDuplicate
      dsimp only
      split
      · exact teamSound_setCauses (hoffered _ _) rfl
      · exact hoffered _ _
    · exact teamSound_completeNew i c _ index stamp h hr

theorem teamSound_startCall (b : Burst) (stamp : Stamp) (h : TeamSound s) (hr : running s = true) :
    TeamSound (startCall b stamp s) := by
  unfold startCall
  split
  · exact h.of_agree (by simp) (by simp) (by simp)
  · split
    · exact h.of_agree (by simp) (by simp) (by simp)
    · dsimp only
      split
      · exact h.of_agree (by simp) (by simp) (by simp)
      · split
        · exact teamSound_completeCall _ _ _ stamp (h.of_agree rfl ⟨rfl, rfl⟩ rfl) hr
        · exact h.of_agree rfl ⟨rfl, rfl⟩ rfl

theorem teamSound_fragmentZero (b : Burst) (stamp : Stamp) (h : TeamSound s) (hr : running s = true) :
    TeamSound (fragmentZero b stamp s) := by
  unfold fragmentZero
  split
  · split
    · exact h.of_agree rfl ⟨rfl, rfl⟩ rfl
    · refine teamSound_startCall b stamp (h.of_agree (by simp) (by simp) (by simp)) ?_
      rwa [running_of_cfl (s := s) (by simp)]
  · exact teamSound_startCall b stamp h hr

theorem teamSound_laterFragment (b : Burst) (index : Nat) (stamp : Stamp) (h : TeamSound s) (hr : running s = true) :
    TeamSound (laterFragment b index stamp s) := by
  unfold laterFragment
  split
  · exact h.of_agree rfl ⟨rfl, rfl⟩ rfl
  · split
    · exact h.of_agree rfl ⟨rfl, rfl⟩ rfl
    · split
      · exact h.of_agree (by simp) (by simp) (by simp)
      · unfold takeInOrder
        split
        · exact h.of_agree (by simp) (by simp) (by simp)
        · split
          · exact h.of_agree (by simp) (by simp) (by simp)
          · dsimp only
            split
            · exact teamSound_completeCall _ _ _ stamp (h.of_agree rfl ⟨rfl, rfl⟩ rfl) hr
            · exact h.of_agree rfl ⟨rfl, rfl⟩ rfl

theorem teamSound_overheardCall (sender target : Station) (callType : Byte) (stamp : Stamp) (h : TeamSound s) :
    TeamSound (overheardCall sender target callType stamp s) := by
  unfold overheardCall
  split
  · rename_i hl
    split
    · unfold overheardOffer
      split
      · rename_i hholder
        exact teamSound_setControl h hl nofun (of_decide_eq_true hholder).symm
      · exact h
    · split
      · exact teamSound_setCauses h rfl
      · exact h
    · exact h
  · exact h

theorem teamSound_callArrived (b : Burst) (stamp : Stamp) (h : TeamSound s) (hr : running s = true) :
    TeamSound (callArrived b stamp s) := by
  unfold callArrived
  split
  · split
    · exact teamSound_fragmentZero b stamp h hr
    · exact teamSound_laterFragment b _ stamp h hr
  · split
    · exact teamSound_overheardCall _ _ _ stamp h
    · exact h

/-! ### A burst received (R11 to R14, R113) -/

theorem teamSound_honourAllstop (stamp : Stamp) (h : TeamSound s) : TeamSound (honourAllstop stamp s) := by
  have hput : TeamSound (putAllstopCause s) := teamSound_setCauses h rfl
  exact hput.of_agree rfl ⟨rfl, rfl⟩ rfl

/-- R113: a leaving sender's entry goes, and with the holder's entry the control. -/
theorem teamSound_actOnFlag (b : Burst) (h : TeamSound s) : TeamSound (actOnFlag b s) := by
  unfold actOnFlag
  split
  · exact h
  · exact teamSound_updatePeer _ h fun _ => ⟨rfl, rfl⟩
  · dsimp only
    split
    · exact teamSound_makeUnheld (peersSound_removePeer _ h.1) h.noControl
    · rename_i hholder
      exact teamSound_removePeer _ h fun _ => hholder

theorem teamSound_peerStep (b : Burst) (stamp : Stamp) (h : TeamSound s) (hown : b.sender ≠ s.config.station) :
    TeamSound (peerStep b stamp s) := by
  unfold peerStep
  split
  · exact teamSound_actOnFlag b (teamSound_updatePeer _ h fun _ => ⟨rfl, rfl⟩)
  · rename_i hnone
    split
    · exact h
    · exact teamSound_actOnFlag b (teamSound_enterPeer b stamp h (findPeer_none hnone) hown)

theorem teamSound_presenceBody (b : Burst) (h : TeamSound s) : TeamSound (presenceBody b s) := by
  refine teamSound_updatePeer _ h fun p => ?_
  split <;> exact ⟨rfl, rfl⟩

theorem teamSound_classify (octets : List Byte) (stamp : Stamp) (h : TeamSound s) (hr : running s = true) :
    TeamSound (classify octets stamp s) := by
  obtain ⟨heard, ⟨rxc, crowdedHeard, rfl⟩, hcases⟩ := classify_cases octets stamp s
  have hheard : TeamSound (heardState rxc crowdedHeard s) := h.of_agree rfl ⟨rfl, rfl⟩ rfl
  rcases hcases with heq | heq | heq | ⟨-, hown, heq⟩
  · exact heq ▸ hheard
  · exact heq ▸ hheard.of_agree rfl ⟨rfl, rfl⟩ rfl
  · exact heq ▸ teamSound_honourAllstop stamp hheard
  · have hpeer := teamSound_peerStep (readBurst octets) stamp hheard hown
    have hrun : running (peerStep (readBurst octets) stamp (heardState rxc crowdedHeard s)) = true := by
      rwa [running_of_cfl (s := heardState rxc crowdedHeard s) (by simp)]
    rw [heq]
    unfold routeHomeBurst
    split
    · exact teamSound_callArrived _ stamp hpeer hrun
    · split
      · exact hpeer.of_agree (by simp) (by simp) (by simp)
      · exact hpeer
    · exact teamSound_presenceBody _ hpeer
    · exact teamSound_honourAllstop stamp hpeer

/-! ### Teams joined and left, silence, start-up (R109, R110, R115, R163, R165) -/

theorem teamSound_clearTeam (h : TeamSound s) : TeamSound (clearTeam s) := by
  have hemptied : PeersSound { s with tmu.peers := [] } := ⟨by simp, .nil, by simp⟩
  have hunheld : TeamSound (makeUnheld { s with tmu.peers := [] }) := teamSound_makeUnheld hemptied h.noControl
  unfold clearTeam
  exact hunheld.of_agree (by simp) (by simp) (by simp)

theorem teamSound_joined (team : Team) (h : TeamSound s) : TeamSound (joined team s) := by
  have hcleared : TeamSound (clearTeam { s with tmu.leavePending := false }) :=
    teamSound_clearTeam (h.of_agree rfl ⟨rfl, rfl⟩ rfl)
  unfold joined
  exact hcleared.of_agree (by simp) (by simp) (by simp)

theorem teamSound_onAirCompleted (h : TeamSound s) : TeamSound (onAirCompleted s) := by
  unfold onAirCompleted
  split
  · rename_i b _
    have hreported : TeamSound (reportCompletion b.source { s with cau.onAir := none }) := by
      unfold reportCompletion
      dsimp only
      split
      · exact h.of_agree (by simp) (by simp) (by simp)
      · exact h.of_agree rfl ⟨rfl, rfl⟩ rfl
      · unfold presenceCompleted
        split
        · exact h.of_agree rfl ⟨rfl, rfl⟩ rfl
        · exact h.of_agree rfl ⟨rfl, rfl⟩ rfl
        · split
          · have hsilent : TeamSound { s with cau.onAir := none, tmu.presenceCount := 0 } := h.of_agree rfl ⟨rfl, rfl⟩ rfl
            exact (teamSound_clearTeam hsilent).of_agree rfl ⟨rfl, rfl⟩ rfl
          · exact h.of_agree rfl ⟨rfl, rfl⟩ rfl
      · exact h.of_agree (by simp) (by simp) (by simp)
    exact hreported.of_agree (by simp) (by simp) (by simp)
  · exact h

theorem teamSound_silenceExpired (h : TeamSound s) : TeamSound (silenceExpired s) := by
  have hmapped : TeamSound { s with tmu.peers := s.tmu.peers.map (silentPeer s.config) } :=
    teamSound_mapPeers h fun _ => ⟨rfl, rfl⟩
  unfold silenceExpired
  dsimp only
  split
  · exact teamSound_setCauses hmapped rfl
  · exact hmapped

theorem teamSound_offerLapsed (h : TeamSound s) (hr : running s = true) : TeamSound (offerLapsed s) := by
  unfold offerLapsed
  split
  · rename_i hcontrol
    cases hl : isLocomotive s with
    | true => exact teamSound_setControl h hl nofun (by rw [hcontrol]; rfl)
    | false => exact absurd (hcontrol.symm.trans (h.noControl hr hl).1) nofun
  · exact h

/-- No peers, UNHELD, and NO_HOLDER in a locomotive's set alone: the values of entry and of RESTART. -/
theorem teamSound_unheld (hp : t.tmu.peers = []) (hc : t.tmu.control = .unheld)
    (hloc : isLocomotive t = true → t.stu.causes.noHolder = true)
    (hport : t.cfl.part = .running → isLocomotive t = false → t.stu.causes = {}) : TeamSound t := by
  refine ⟨⟨by simp [hp], by simp [hp], by simp [hp]⟩, controlSound_iff.mpr fun hr => ⟨fun hl => ⟨?_, ?_⟩, fun hn => ⟨hc, hport hr hn⟩⟩⟩
  · simp [hc, hloc hl]
  · simp [hc, Control.holder]

theorem teamSound_of_not_running (h : TeamSound s) (htmu : t.tmu = s.tmu) (hr : t.cfl.part ≠ .running) : TeamSound t := by
  obtain ⟨⟨hlength, hsorted, -⟩, -⟩ := h
  exact ⟨⟨htmu ▸ hlength, htmu ▸ hsorted, fun h => absurd h hr⟩, fun h => absurd h hr⟩

theorem teamSound_octetRead (x : Byte) (h : TeamSound s) : TeamSound (octetRead x s) := by
  unfold octetRead checkBlock
  dsimp only
  split
  · split
    · exact teamSound_of_not_running h rfl nofun
    · split
      · exact teamSound_of_not_running h rfl nofun
      · refine teamSound_unheld rfl rfl (fun hl => ?_) (fun _ hn => ?_)
        · have hrole := isLocomotive_iff.mp hl
          simp only [enterRunning, State.config, Option.getD_some] at hrole
          simp [enterRunning, causesFormed, hrole]
        · simp only [isLocomotive, enterRunning, State.config, Option.getD_some] at hn
          simp only [enterRunning]
          cases hrole : (readConfig (s.cfl.holding ++ [x])).role with
          | locomotive => exact absurd hrole (of_decide_eq_false hn)
          | portable => rfl
  · refine ⟨h.1, h.2⟩

theorem teamSound_restartRunning (h : TeamSound s) (hr : running s = true) : TeamSound (restartRunning s) := by
  have hloc := isLocomotive_of_cfl (restartRunning_cfl s)
  refine teamSound_unheld rfl rfl (fun hl => ?_) (fun _ hn => ?_)
  · rw [hloc] at hl
    simp [restartRunning, hl, putNoHolder_of_locomotive hl]
  · rw [hloc] at hn
    simpa [restartRunning, hn] using (h.noControl hr hn).2

/-! ### Every effect -/

theorem teamSound_quiet {effect : State} (hq : Quiet s effect) (h : TeamSound s) : TeamSound effect := by
  cases hq with
  | reset => exact teamSound_unheld (t := resetTaken s) rfl rfl nofun nofun
  | load hr => exact teamSound_of_not_running h rfl nofun
  | noMemory hr => exact teamSound_of_not_running h rfl nofun
  | aging =>
    have hframe := ageContexts_frame { s with asu.agingMs := s.asu.agingMs - 100 }
    exact h.of_agree (by simp [hframe]) (by simp [hframe]) (by simp [hframe])
  | silence => exact teamSound_silenceExpired (h.of_agree rfl ⟨rfl, rfl⟩ rfl)
  | offer hdue => exact teamSound_offerLapsed h (running_of_due hdue)
  | cabCause active =>
    have hinput : TeamSound { s with stu.cabInput := active } := h.of_agree rfl ⟨rfl, rfl⟩ rfl
    exact teamSound_setCauses hinput rfl
  | terminal present => exact teamSound_setCauses h rfl
  | nothing => exact h
  | _ => exact h.of_agree (by simp) (by simp) (by simp)

theorem teamSound_stirring {effect : State} (hs : Stirring s effect) (h : TeamSound s) : TeamSound effect := by
  cases hs with
  | octet x => exact teamSound_octetRead x h
  | burst octets stamp hr => exact teamSound_classify octets stamp h hr
  | completion => exact teamSound_onAirCompleted h
  | join team => exact teamSound_joined team h
  | restart hr => exact teamSound_restartRunning h hr
  | _ => exact h.of_agree (by simp) (by simp) (by simp)

theorem teamSound_tick (h : TeamSound s) : TeamSound (tick s) := by
  unfold tick
  dsimp only
  split <;> exact h.of_agree rfl ⟨rfl, rfl⟩ rfl

theorem teamSound_looksInside : LooksInside TeamSound :=
  ⟨fun _ h => h.of_agree rfl ⟨rfl, rfl⟩ rfl, fun _ _ h => h.of_agree rfl ⟨rfl, rfl⟩ rfl, fun _ _ h => h.of_agree rfl ⟨rfl, rfl⟩ rfl⟩

end

/-- Settles O55. -/
theorem holderAndPeersStaySound : Obligations.HolderAndPeersStaySound := fun _ _ h hstep =>
  step_keeps_of_effects teamSound_looksInside (fun _ => teamSound_tick) (fun _ _ => teamSound_quiet)
    (fun _ _ hs h => (teamSound_stirring hs h).of_agree (by simp) (by simp) (by simp)) h hstep

end Sys2Proof.Machine
end

section
/-! PROOF. Which calls reach the terminal processor (04 section 4.5, 07 section 7.6): a MOVE or COUNTDOWN joins a locomotive's RCQ only from
the holder while the cause set is empty, before the event and after it. -/

namespace Sys2Proof.Machine

/-- What joins the RCQ from s to t is no movement, or it comes from the holder with no cause in the set, in s and in t. -/
def MovesOnlyFromHolder (s t : State) : Prop :=
  ∀ r ∈ t.asu.rcq, r ∈ s.asu.rcq ∨ (r.callType ≠ 1 ∧ r.callType ≠ 2) ∨
    (s.tmu.control.holder = some r.sender ∧ t.tmu.control.holder = some r.sender ∧ s.stu.causes = {} ∧ t.stu.causes = {})

section
variable {s t u : State}

theorem movesOnly_of_subset (h : ∀ r ∈ t.asu.rcq, r ∈ s.asu.rcq) : MovesOnlyFromHolder s t := fun r hr => .inl (h r hr)

theorem movesOnly_of_rcq (h : t.asu.rcq = s.asu.rcq) : MovesOnlyFromHolder s t := movesOnly_of_subset fun _ hr => h ▸ hr

theorem MovesOnlyFromHolder.before (h : MovesOnlyFromHolder u t) (hrcq : u.asu.rcq = s.asu.rcq)
    (hcontrol : u.tmu.control = s.tmu.control) (hcauses : u.stu.causes = s.stu.causes) : MovesOnlyFromHolder s t := by
  unfold MovesOnlyFromHolder at h ⊢
  rwa [hrcq, hcontrol, hcauses] at h

theorem MovesOnlyFromHolder.after (h : MovesOnlyFromHolder s u) (hrcq : t.asu.rcq = u.asu.rcq)
    (hcontrol : t.tmu.control = u.tmu.control) (hcauses : t.stu.causes = u.stu.causes) : MovesOnlyFromHolder s t := by
  unfold MovesOnlyFromHolder at h ⊢
  rwa [← hrcq, ← hcontrol, ← hcauses] at h

/-! ### Completion (R63 to R65) -/

/-- Every record that joins the RCQ is that of the call. -/
theorem mem_rcq_completeNew {i : Nat} {c : Context} {d : Digest} {index : Nat} {stamp : Stamp} {r : CallRecord}
    (h : r ∈ (completeNew i c d index stamp s).asu.rcq) : r ∈ s.asu.rcq ∨ r.callType = c.callType := by
  have hplaced {w : State} (hr : r ∈ w.asu.rcq ++ [recordOf c stamp w]) (hw : w.asu.rcq = s.asu.rcq) :
      r ∈ s.asu.rcq ∨ r.callType = c.callType := by
    rcases List.mem_append.mp hr with hr | hr
    · exact .inl (hw ▸ hr)
    · rw [List.mem_singleton.mp hr]
      exact .inr rfl
  unfold completeNew at h
  dsimp only at h
  split at h
  · unfold deliverPartActed at h
    dsimp only at h
    split at h
    · split at h
      · exact hplaced h (by simp)
      · exact .inl (by simpa using h)
    · exact .inl (by simpa using h)
  · unfold deliverProcessorActed at h
    split at h
    · split at h
      · refine hplaced (w := (decideVerdict c.sender c.callType s).2) ?_ (by simp)
        simpa [placeRecord, vacate] using h
      · exact .inl (by simpa using h)
    · exact .inl (by simpa using h)

/-- A movement joins the RCQ only where R119 accepts it. -/
theorem movesOnly_completeNew_movement {i : Nat} {c : Context} {d : Digest} {index : Nat} {stamp : Stamp} (hl : isLocomotive s = true)
    (htype : c.callType = 1 ∨ c.callType = 2) : MovesOnlyFromHolder s (completeNew i c d index stamp s) := by
  have hacted : partActed c.callType s = false := by
    refine not_partActed_of_type s ?_
    rcases htype with h | h <;> rw [h] <;> decide
  rw [completeNew_processorActed d index stamp hacted (decideVerdict_movement c.sender hl htype)]
  by_cases haccepted : s.tmu.control.holder = some c.sender ∧ s.stu.causes = {}
  · obtain ⟨hholder, hcauses⟩ := haccepted
    rw [moveVerdict_accepted hholder hcauses]
    by_cases hroom : s.asu.rcq.length < 16
    · rw [deliverProcessorActed_room i c d index stamp hroom]
      intro r hr
      rcases List.mem_append.mp (show r ∈ s.asu.rcq ++ [recordOf c stamp s] by simpa [placeRecord, vacate] using hr) with hr | hr
      · exact .inl hr
      · rw [List.mem_singleton.mp hr]
        exact .inr (.inr ⟨hholder, by simpa [recordOf] using hholder, hcauses, by simpa using hcauses⟩)
    · rw [deliverProcessorActed_full i c d index stamp (Nat.not_lt.mp hroom)]
      exact movesOnly_of_rcq (by simp)
  · have hrefused : moveVerdict c.sender s ≠ .accepted := by
      by_cases hholder : s.tmu.control.holder = some c.sender
      · rw [moveVerdict_stopped hholder fun hcauses => haccepted ⟨hholder, hcauses⟩]
        decide
      · rw [moveVerdict_notHolder hholder]
        decide
    rw [deliverProcessorActed_refused i c d index stamp s hrefused]
    exact movesOnly_of_rcq (by simp)

theorem movesOnly_completeCall (i : Nat) (c : Context) (index : Nat) (stamp : Stamp) (hl : isLocomotive s = true) :
    MovesOnlyFromHolder s (completeCall i c index stamp s) := by
  unfold completeCall
  split
  · exact movesOnly_of_rcq (by simp)
  · dsimp only
    split
    · exact movesOnly_of_rcq (by simp)
    · by_cases htype : c.callType = 1 ∨ c.callType = 2
      · exact movesOnly_completeNew_movement hl htype
      · intro r hr
        rcases mem_rcq_completeNew hr with hr | hr
        · exact .inl hr
        · exact .inr (.inl (hr ▸ not_or.mp htype))

/-! ### Fragments (R55 to R58) -/

theorem movesOnly_startCall (b : Burst) (stamp : Stamp) (hl : isLocomotive s = true) :
    MovesOnlyFromHolder s (startCall b stamp s) := by
  unfold startCall
  split
  · exact movesOnly_of_rcq (by simp)
  · split
    · exact movesOnly_of_rcq (by simp)
    · rename_i buffer _ _
      dsimp only
      split
      · exact movesOnly_of_rcq (by simp)
      · split
        · exact (movesOnly_completeCall (s := takeBuffer buffer b.body s) _ _ _ stamp hl).before rfl rfl rfl
        · exact movesOnly_of_rcq rfl

theorem movesOnly_callArrived (b : Burst) (stamp : Stamp) (hl : isLocomotive s = true) :
    MovesOnlyFromHolder s (callArrived b stamp s) := by
  unfold callArrived
  split
  · split
    · unfold fragmentZero
      split
      · split
        · exact movesOnly_of_rcq rfl
        · refine (movesOnly_startCall b stamp ?_).before (by simp) (by simp) (by simp)
          rwa [isLocomotive_of_cfl (s := s) (by simp)]
      · exact movesOnly_startCall b stamp hl
    · unfold laterFragment
      split
      · exact movesOnly_of_rcq rfl
      · split
        · exact movesOnly_of_rcq rfl
        · split
          · exact movesOnly_of_rcq (by simp)
          · unfold takeInOrder
            split
            · exact movesOnly_of_rcq (by simp)
            · split
              · exact movesOnly_of_rcq (by simp)
              · rename_i buffer _ _
                dsimp only
                split
                · exact (movesOnly_completeCall (s := takeBuffer buffer b.body s) _ _ _ stamp hl).before rfl rfl rfl
                · exact movesOnly_of_rcq rfl
  · split
    · exact movesOnly_of_rcq (by simp)
    · exact movesOnly_of_rcq rfl

/-! ### Bursts (R11 to R14) -/

/-- The peer step of a burst that is no PRESENCE leaves control and causes alone (R14, R112). -/
theorem peerStep_control {b : Burst} (stamp : Stamp) (h : b.kind ≠ .presence) :
    (peerStep b stamp s).tmu.control = s.tmu.control ∧ (peerStep b stamp s).stu.causes = s.stu.causes := by
  have hflag : handedFlag b = .normal := if_neg h
  unfold peerStep actOnFlag
  simp only [hflag]
  split <;> simp

theorem movesOnly_classify (octets : List Byte) (stamp : Stamp) (hl : isLocomotive s = true) :
    MovesOnlyFromHolder s (classify octets stamp s) := by
  obtain ⟨heard, ⟨rxc, crowdedHeard, rfl⟩, hcases⟩ := classify_cases octets stamp s
  rcases hcases with heq | heq | heq | ⟨-, -, heq⟩
  · exact heq ▸ movesOnly_of_rcq rfl
  · exact heq ▸ movesOnly_of_rcq rfl
  · exact heq ▸ movesOnly_of_rcq (by simp [heardState])
  · rw [heq]
    cases hk : (readBurst octets).kind with
    | call =>
      have hkind : (readBurst octets).kind ≠ .presence := by simp [hk]
      rw [routeHomeBurst_call stamp _ hk]
      refine (movesOnly_callArrived _ stamp ?_).before ?_ (peerStep_control stamp hkind).1 (peerStep_control stamp hkind).2
      · rwa [isLocomotive_of_cfl (s := heardState rxc crowdedHeard s) (by simp)]
      · simp [heardState]
    | readback =>
      rw [routeHomeBurst_readback stamp _ hk]
      split <;> exact movesOnly_of_rcq (by simp [heardState])
    | presence => exact routeHomeBurst_presence stamp _ hk ▸ movesOnly_of_rcq (by simp [heardState])
    | allstop => exact routeHomeBurst_allstop stamp _ hk ▸ movesOnly_of_rcq (by simp [heardState, heardAllstop])

/-! ### Every effect -/

theorem movesOnly_quiet {effect : State} (hq : Quiet s effect) : MovesOnlyFromHolder s effect := by
  cases hq with
  | reset => exact movesOnly_of_subset nofun
  | load => exact movesOnly_of_rcq rfl
  | noMemory => exact movesOnly_of_rcq rfl
  | aging =>
    have hframe := ageContexts_frame { s with asu.agingMs := s.asu.agingMs - 100 }
    exact movesOnly_of_rcq (by simp [hframe])
  | takeCall r rest _ hr => exact movesOnly_of_subset fun x hx => hr ▸ List.mem_cons_of_mem r hx
  | nothing => exact movesOnly_of_rcq rfl
  | _ => exact movesOnly_of_rcq (by simp)

theorem movesOnly_stirring {effect : State} (hs : Stirring s effect) (hr : s.cfl.part = .running) (hl : isLocomotive s = true) :
    MovesOnlyFromHolder s effect := by
  cases hs with
  | octet x hload => exact absurd hr (loading_not_running hload)
  | burst octets stamp => exact movesOnly_classify octets stamp hl
  | join team =>
    unfold joined
    exact movesOnly_of_rcq (by simp)
  | restart => exact movesOnly_of_subset nofun
  | _ => exact movesOnly_of_rcq (by simp)

end

/-- Settles O58. -/
theorem movementReachesTheProcessorOnlyFromTheHolder : Obligations.MovementReachesTheProcessorOnlyFromTheHolder := by
  intro c s t hr hl hnext
  change MovesOnlyFromHolder s t
  obtain ⟨u, port, hafter, rfl⟩ := exec_after c hnext
  refine MovesOnlyFromHolder.after (u := u) ?_ rfl rfl rfl
  cases hafter with
  | same => exact movesOnly_of_rcq rfl
  | quiet hq => exact (movesOnly_quiet hq).after rfl rfl rfl
  | stirred hs => exact (movesOnly_stirring hs hr hl).after (by simp [settle]) (by simp [settle]) (by simp [settle])

end Sys2Proof.Machine
end

section
/-! PROOF. A submitted call in its buffers and its call number (06 section 6.2, 05 section 5.3). -/

namespace Sys2Proof.Machine

/-! ### The octets of a call over its buffers (R5, R89) -/

theorem padTo_eq (n : Nat) (octets : List Byte) : padTo n octets = octets.take n ++ List.replicate (n - octets.length) 0 := by
  rw [padTo, List.take_append, List.take_replicate, Nat.min_eq_left (Nat.sub_le _ _)]

theorem padTo_of_le {n : Nat} {octets : List Byte} (h : octets.length ≤ n) :
    padTo n octets = octets ++ List.replicate (n - octets.length) 0 := by
  rw [padTo_eq, List.take_of_length_le h]

theorem padTo_add (n m : Nat) (octets : List Byte) : padTo (n + m) octets = padTo n octets ++ padTo m (octets.drop n) := by
  rcases Nat.le_total octets.length n with h | h
  · have hdrop : octets.drop n = [] := List.drop_of_length_le h
    rw [padTo_of_le h, padTo_of_le (Nat.le_trans h (Nat.le_add_right n m)), hdrop, padTo_of_le (Nat.zero_le m), List.nil_append,
      List.append_assoc, List.replicate_append_replicate]
    congr 2
    simp only [List.length_nil]
    omega
  · have hnone : n - octets.length = 0 := by omega
    rw [padTo_eq n, hnone, List.replicate_zero, List.append_nil, padTo_eq, padTo_eq, List.length_drop, List.take_add,
      List.append_assoc]
    congr 3
    omega

/-- Bodies written into distinct buffers are read back from them in list order. -/
theorem readBuffers_writeBuffers_bodies {buffers : List BufferNumber} (hnodup : buffers.Nodup) (octets : List Byte)
    {m : List Host.Cell} (hm : Memory.wf m = true) :
    readBuffers (writeBuffers m buffers (bodies buffers.length octets)) buffers = padTo (22 * buffers.length) octets := by
  induction buffers generalizing m octets with
  | nil => simp [readBuffers, padTo]
  | cons b rest ih =>
    obtain ⟨hb, hrest⟩ := List.nodup_cons.mp hnodup
    have hhead : readBuffer (writeBuffers (writeBuffer m b (padTo 22 octets)) rest (bodies rest.length (octets.drop 22))) b =
        padTo 22 octets := by
      rw [readBuffer_writeBuffers_other hb, readBuffer_writeBuffer_same b _ hm, padTo_of_length (padTo_length 22 octets)]
    have htail := ih hrest (octets.drop 22) (Memory.wf_writeBuffer b (padTo 22 octets) hm)
    have hlength : 22 * (b :: rest).length = 22 + 22 * rest.length := by
      rw [List.length_cons]
      omega
    rw [hlength, padTo_add, ← hhead, ← htail]
    rfl

theorem callOctets_length {callType : Byte} {data : List Byte} {length : Nat} (h : data.length = length) :
    (callOctets callType length data).length = length + 2 := by
  simp [callOctets, h]

/-! ### The number of the next order (R86) -/

theorem numberInUse_iff {number : CallNumber} {s : State} :
    numberInUse number s = true ↔ ∃ o ∈ inUse s.odu.ool, o.callNumber = number := by
  simp only [numberInUse, inUse, List.any_eq_true, List.mem_filterMap, id_eq]
  constructor
  · rintro ⟨slot, hmem, hany⟩
    cases slot with
    | none => cases hany
    | some o => exact ⟨o, ⟨_, hmem, rfl⟩, of_decide_eq_true hany⟩
  · rintro ⟨o, ⟨slot, hmem, rfl⟩, ho⟩
    exact ⟨some o, hmem, by simpa using ho⟩

/-- The number found stands k after the first one looked at, the k before it are in use, and it is not, unless the fuel ran out. -/
theorem freeNumber_spec (n : Nat) (number : CallNumber) (s : State) :
    ∃ k, k ≤ n ∧ freeNumber n number s = number + BitVec.ofNat 8 k ∧
      (∀ j, j < k → numberInUse (number + BitVec.ofNat 8 j) s = true) ∧
      (k < n → numberInUse (number + BitVec.ofNat 8 k) s = false) := by
  induction n generalizing number with
  | zero => exact ⟨0, Nat.le_refl 0, by simp [freeNumber], by simp, by simp⟩
  | succ n ih =>
    cases hused : numberInUse number s with
    | false => exact ⟨0, Nat.zero_le _, by simp [freeNumber, hused], by simp, by simpa using hused⟩
    | true =>
      have hshift (j : Nat) : number + 1 + BitVec.ofNat 8 j = number + BitVec.ofNat 8 (j + 1) := by
        rw [BitVec.add_assoc]
        congr 1
        apply BitVec.eq_of_toNat_eq
        simp [Nat.add_comm]
      obtain ⟨k, hk, heq, hbefore, hat⟩ := ih (number + 1)
      refine ⟨k + 1, by omega, by rw [freeNumber, hused, if_pos rfl, heq, hshift], ?_, fun hlt => hshift k ▸ hat (by omega)⟩
      intro j hj
      cases j with
      | zero => simpa using hused
      | succ j => exact hshift j ▸ hbefore j (by omega)

/-- Nine numbers in a row are not all held by at most eight orders. -/
theorem exists_number_not_inUse {s : State} (h : s.odu.ool.length ≤ 8) (number : CallNumber) :
    ∃ j, j ≤ 8 ∧ numberInUse (number + BitVec.ofNat 8 j) s = false := by
  by_contra hall
  have hused (j : Nat) (hj : j ≤ 8) : numberInUse (number + BitVec.ofNat 8 j) s = true := by
    by_contra hfree
    exact hall ⟨j, hj, by simpa using hfree⟩
  have hnodup : ((List.range 9).map (fun j => number + BitVec.ofNat 8 j)).Nodup := by
    refine List.Nodup.map_on (fun i hi j hj heq => ?_) List.nodup_range
    have hnat := congrArg BitVec.toNat (BitVec.add_right_inj number |>.mp heq)
    simp only [List.mem_range, BitVec.toNat_ofNat] at hi hj hnat
    omega
  have hsub : (List.range 9).map (fun j => number + BitVec.ofNat 8 j) ⊆ (inUse s.odu.ool).map Order.callNumber := by
    intro x hx
    obtain ⟨j, hj, rfl⟩ := List.mem_map.mp hx
    obtain ⟨o, ho, hn⟩ := numberInUse_iff.mp (hused j (by have := List.mem_range.mp hj; omega))
    exact List.mem_map.mpr ⟨o, ho, hn⟩
  have hle := (hnodup.subperm hsub).length_le
  have hinUse : (inUse s.odu.ool).length ≤ s.odu.ool.length := List.length_filterMap_le _ _
  simp only [List.length_map, List.length_range] at hle
  omega

theorem nextNumber_spec {s : State} (h : s.odu.ool.length ≤ 8) :
    ∃ k, k ≤ 8 ∧ nextNumber s = s.odu.callNumber + BitVec.ofNat 8 k ∧ numberInUse (nextNumber s) s = false ∧
      ∀ j, j < k → numberInUse (s.odu.callNumber + BitVec.ofNat 8 j) s = true := by
  obtain ⟨k, hk, heq, hbefore, hat⟩ := freeNumber_spec 8 s.odu.callNumber s
  refine ⟨k, hk, heq, ?_, hbefore⟩
  obtain ⟨j, hj, hfree⟩ := exists_number_not_inUse h s.odu.callNumber
  have hkj : k ≤ j := by
    by_contra hlt
    exact absurd ((hbefore j (by omega)).symm.trans hfree) nofun
  rw [nextNumber, heq]
  rcases Nat.lt_or_eq_of_le hkj with hlt | rfl
  · exact hat (by omega)
  · exact hfree

/-- Settles O30. -/
theorem submittedCallsGetNumbersAndBuffers : Obligations.SubmittedCallsGetNumbersAndBuffers := by
  constructor
  · rintro m buffers callType data hm hnodup - hbuffers after rfl
    have hroom : data.length + 2 ≤ 22 * buffers.length := by
      rw [hbuffers, fragmentCount]
      split <;> omega
    refine ⟨?_, fun other hother => readBuffer_writeBuffers_other hother _ m, Memory.wf_writeBuffers _ _ hm⟩
    rw [← hbuffers, readBuffers_writeBuffers_bodies hnodup _ hm, padTo_of_le (callOctets_length rfl ▸ hroom), callOctets_length rfl]
    have hzeros : 22 * buffers.length - (data.length + 2) = 22 * buffers.length - 2 - data.length := by omega
    rw [hzeros]
    simp [callOctets]
  · intro s h
    obtain ⟨k, hk, heq, hfree, hbefore⟩ := nextNumber_spec (Nat.le_of_eq h)
    refine ⟨k, hk, heq, fun o ho hn => ?_, fun j hj => numberInUse_iff.mp (hbefore j hj)⟩
    exact absurd ((numberInUse_iff.mpr ⟨o, ho, hn⟩).symm.trans hfree) nofun

end Sys2Proof.Machine
end

section
/-! PROOF. The order slots, the results and the read-backs owed (06 sections 6.1 to 6.8): every effect keeps them sound. -/

namespace Sys2Proof.Machine

/-! ### Slots in use that satisfy a test -/

theorem slotAt_map {α β : Type} {g : Option α → Option β} (hg : g none = none) (slots : List (Option α)) (i : Nat) :
    slotAt (slots.map g) i = g (slotAt slots i) := by
  simp only [slotAt, List.getD_eq_getElem?_getD, List.getElem?_map]
  cases slots[i]? with
  | none => exact hg.symm
  | some x => rfl

/-- At most one slot holds what satisfies a test. -/
theorem filter_inUse_length_le_one_iff {α : Type} {p : α → Bool} {slots : List (Option α)} :
    ((inUse slots).filter p).length ≤ 1 ↔
      ∀ i j a b, slotAt slots i = some a → slotAt slots j = some b → p a = true → p b = true → i = j := by
  have hfilter : (inUse slots).filter p = inUse (slots.map (Option.filter p)) := by
    simp only [inUse, List.filter_filterMap, List.filterMap_map]
    rfl
  have hnodup : ((inUse slots).filter p).length ≤ 1 ↔ ((inUse (slots.map (Option.filter p))).map (fun _ => ())).Nodup := by
    rw [← hfilter, List.map_const', List.nodup_replicate]
  rw [hnodup, nodup_inUse_iff]
  simp only [slotAt_map (g := Option.filter p) rfl, Option.filter_eq_some_iff]
  exact ⟨fun h i j a b ha hb hpa hpb => h i j a b ⟨ha, hpa⟩ ⟨hb, hpb⟩ trivial, fun h i j a b ha hb _ => h i j a b ha.1 hb.1 ha.2 hb.2⟩

/-! ### OrdersSound, read slot by slot -/

/-- What OrdersSound says of the slots and of the orders that wait FINISHED. -/
structure OrdersFit (s : State) : Prop where
  length : s.odu.ool.length = 8
  sending : ∀ i j a b, orderAt i s = some a → orderAt j s = some b → a.state = .sending → b.state = .sending → i = j
  number : ∀ i j a b, orderAt i s = some a → orderAt j s = some b → a.callNumber = b.callNumber → i = j
  waiting : FinishedHeld s

/-- What OrdersSound says of the RSQ and the RBQ. -/
def QueuesFit (o : Odu) : Prop := o.rsq.length ≤ 8 ∧ o.rbq.length ≤ 8 ∧ (o.rbq.map (fun e => (e.sender, e.callNumber))).Nodup

theorem ordersSound_iff {s : State} : OrdersSound s ↔ OrdersFit s ∧ QueuesFit s.odu := by
  have hsending : ((inUse s.odu.ool).filter isSending).length ≤ 1 ↔
      ∀ i j a b, orderAt i s = some a → orderAt j s = some b → a.state = .sending → b.state = .sending → i = j := by
    rw [filter_inUse_length_le_one_iff]
    simp only [isSending, decide_eq_true_eq]
    rfl
  unfold OrdersSound
  rw [hsending, nodup_inUse_iff]
  exact ⟨fun ⟨h1, h2, h3, h4, h5, h6, h7⟩ => ⟨⟨h1, h2, h3, h7⟩, h4, h5, h6⟩,
    fun ⟨⟨h1, h2, h3, h7⟩, h4, h5, h6⟩ => ⟨h1, h2, h3, h4, h5, h6, h7⟩⟩

/-- Both together: what every effect keeps. -/
def Ordered (s : State) : Prop := OrdersFit s ∧ QueuesFit s.odu

section
variable {s t : State}

theorem orderAt_of_ool (h : t.odu.ool = s.odu.ool) (i : Nat) : orderAt i t = orderAt i s := by simp [orderAt, h]

theorem OrdersFit.of_odu (h : OrdersFit s) (hool : t.odu.ool = s.odu.ool) (hfinished : t.odu.finishedSlots = s.odu.finishedSlots)
    (hrsq : t.odu.rsq = s.odu.rsq) : OrdersFit t := by
  obtain ⟨hlength, hsending, hnumber, hwaiting⟩ := h
  refine ⟨hool ▸ hlength, ?_, ?_, ?_⟩
  · simpa only [orderAt_of_ool hool] using hsending
  · simpa only [orderAt_of_ool hool] using hnumber
  · unfold FinishedHeld at hwaiting ⊢
    simpa only [orderAt_of_ool hool, hfinished, hrsq] using hwaiting

theorem Ordered.of_odu (h : Ordered s) (hodu : t.odu = s.odu) : Ordered t :=
  ⟨h.1.of_odu (by rw [hodu]) (by rw [hodu]) (by rw [hodu]), hodu ▸ h.2⟩

/-! ### One slot written -/

theorem orderAt_lt {i : Nat} {o : Order} (h : orderAt i s = some o) : i < s.odu.ool.length := slotAt_lt h

theorem orderAt_of_setSlot_none {slot i : Nat} {o : Order} (h : orderAt i (setSlot slot none s) = some o) :
    slot ≠ i ∧ orderAt i s = some o := slotAt_of_set_none h

theorem orderAt_of_setSlot {slot i : Nat} {p o : Order} (h : orderAt i (setSlot slot (some p) s) = some o) :
    slot = i ∧ o = p ∨ slot ≠ i ∧ orderAt i s = some o := slotAt_of_set h

/-- An order changes and keeps its number; it is FINISHED as before, and SENDING only if it was or if none is. -/
theorem ordersFit_setSlot {slot : Nat} {o p : Order} (h : OrdersFit s) (ho : orderAt slot s = some o)
    (hnumber : p.callNumber = o.callNumber) (hfinished : p.state = .finished ↔ o.state = .finished)
    (hbuffers : p.buffers = o.buffers)
    (hsending : p.state = .sending → o.state = .sending ∨ ∀ i q, orderAt i s = some q → q.state ≠ .sending) :
    OrdersFit (setSlot slot (some p) s) := by
  obtain ⟨hlength, hone, hnumbers, hnodup, hslots, hempty, hfull⟩ := h
  have hsame : orderAt slot (setSlot slot (some p) s) = some p := orderAt_setSlot_same (orderAt_lt ho) _
  have hsendingAt {i : Nat} {a : Order} (ha : orderAt i (setSlot slot (some p) s) = some a) (hs : a.state = .sending) :
      (∃ b, orderAt i s = some b ∧ b.state = .sending) ∨ slot = i ∧ ∀ j q, orderAt j s = some q → q.state ≠ .sending := by
    rcases orderAt_of_setSlot ha with ⟨rfl, rfl⟩ | ⟨-, ha⟩
    · rcases hsending hs with hs | hnone
      · exact .inl ⟨o, ho, hs⟩
      · exact .inr ⟨rfl, hnone⟩
    · exact .inl ⟨a, ha, hs⟩
  have hnumberAt {i : Nat} {a : Order} (ha : orderAt i (setSlot slot (some p) s) = some a) :
      ∃ b, orderAt i s = some b ∧ a.callNumber = b.callNumber := by
    rcases orderAt_of_setSlot ha with ⟨rfl, rfl⟩ | ⟨-, ha⟩
    · exact ⟨o, ho, hnumber⟩
    · exact ⟨a, ha, rfl⟩
  refine ⟨by simpa using hlength, fun i j a b ha hb hsa hsb => ?_, fun i j a b ha hb hab => ?_, hnodup, fun i => ?_,
    fun i a ha hfa => ?_, hfull⟩
  · rcases hsendingAt ha hsa with ⟨a', ha', hsa'⟩ | ⟨hi, hnone⟩ <;> rcases hsendingAt hb hsb with ⟨b', hb', hsb'⟩ | ⟨hj, hnone'⟩
    · exact hone i j a' b' ha' hb' hsa' hsb'
    · exact absurd hsa' (hnone' i a' ha')
    · exact absurd hsb' (hnone j b' hb')
    · exact hi.symm.trans hj
  · obtain ⟨a', ha', hna⟩ := hnumberAt ha
    obtain ⟨b', hb', hnb⟩ := hnumberAt hb
    exact hnumbers i j a' b' ha' hb' (hna.symm.trans (hab.trans hnb))
  · refine (hslots i).trans ⟨fun ⟨a, ha, hfa⟩ => ?_, fun ⟨a, ha, hfa⟩ => ?_⟩
    · by_cases hi : slot = i
      · subst hi
        cases ho.symm.trans ha
        exact ⟨p, hsame, hfinished.mpr hfa⟩
      · exact ⟨a, (orderAt_setSlot_other hi _ s).trans ha, hfa⟩
    · rcases orderAt_of_setSlot ha with ⟨rfl, rfl⟩ | ⟨-, ha⟩
      · exact ⟨o, ho, hfinished.mp hfa⟩
      · exact ⟨a, ha, hfa⟩
  · rcases orderAt_of_setSlot ha with ⟨rfl, rfl⟩ | ⟨-, ha⟩
    · exact hbuffers.trans (hempty slot o ho (hfinished.mp hfa))
    · exact hempty i a ha hfa

/-- What a change of an order leaves that concerns neither number, nor state, nor buffers. -/
theorem ordered_setSlot_same {slot : Nat} {o p : Order} (h : Ordered s) (ho : orderAt slot s = some o)
    (hnumber : p.callNumber = o.callNumber) (hstate : p.state = o.state) (hbuffers : p.buffers = o.buffers) :
    Ordered (setSlot slot (some p) s) :=
  ⟨ordersFit_setSlot h.1 ho hnumber (by rw [hstate]) hbuffers fun hs => .inl (hstate ▸ hs), h.2⟩

/-- A live order that stops sending. -/
theorem ordered_setSlot_live {slot : Nat} {o p : Order} (h : Ordered s) (ho : orderAt slot s = some o) (hlive : o.state ≠ .finished)
    (hnumber : p.callNumber = o.callNumber) (hbuffers : p.buffers = o.buffers)
    (hstate : p.state ≠ .finished ∧ p.state ≠ .sending) : Ordered (setSlot slot (some p) s) :=
  ⟨ordersFit_setSlot h.1 ho hnumber (iff_of_false hstate.1 hlive) hbuffers fun hs => absurd hs hstate.2, h.2⟩

theorem ordered_setPlace (slot : Nat) (place : FragmentPlace) (h : Ordered s) : Ordered (setPlace slot place s) := by
  unfold setPlace
  split
  · exact h
  · rename_i o ho
    exact ordered_setSlot_same h ho rfl rfl rfl

/-! ### Promotion and finishing (R90, R101, R103) -/

theorem oldestQueued_some {slot : Nat} {o : Order} (h : oldestQueued s = some (slot, o)) :
    orderAt slot s = some o ∧ o.state = .queued := by
  obtain ⟨-, ho, hq, -⟩ := oldestQueuedFrom_some h
  exact ⟨ho, hq⟩

/-- R90: an order becomes SENDING only where none is. -/
theorem ordered_promote (h : Ordered s) : Ordered (promote s) := by
  rcases promote_cases s with heq | ⟨slot, o, hnone, holdest, heq⟩
  · rwa [heq]
  · obtain ⟨ho, hq⟩ := oldestQueued_some holdest
    rw [heq]
    refine ⟨ordersFit_setSlot h.1 ho rfl ?_ rfl fun _ => .inr fun i q => sendingOrder_none hnone, h.2⟩
    simp [becomeSending, hq]

/-- R101, R103: a live order's result joins the RSQ and its slot empties, or it waits FINISHED behind a full RSQ. -/
theorem ordered_offerResult {slot : Nat} {o p : Order} (h : Ordered s) (ho : orderAt slot s = some o) (hlive : o.state ≠ .finished)
    (hp : p.state = .finished) (hbuffers : p.buffers = []) (hnumber : p.callNumber = o.callNumber) :
    Ordered (offerResult slot p s) := by
  obtain ⟨⟨hlength, hone, hnumbers, hnodup, hslots, hempty, hfull⟩, hrsq, hrbq⟩ := h
  have hnotWaiting : slot ∉ s.odu.finishedSlots := by
    intro hmem
    obtain ⟨q, hq, hqf⟩ := (hslots slot).mp hmem
    cases ho.symm.trans hq
    exact hlive hqf
  rcases offerResult_cases slot p s with ⟨hroom, heq⟩ | ⟨hnoRoom, heq⟩
  · have hnone : s.odu.finishedSlots = [] := by
      by_contra hne
      exact absurd (hfull hne) (Nat.ne_of_lt hroom)
    rw [heq]
    refine ⟨⟨by simpa using hlength, fun i j a b ha hb => ?_, fun i j a b ha hb => ?_, hnodup, fun i => ?_, fun i a ha => ?_,
      fun hne => absurd hnone hne⟩, by simpa using hroom, hrbq⟩
    · exact hone i j a b (orderAt_of_setSlot_none ha).2 (orderAt_of_setSlot_none hb).2
    · exact hnumbers i j a b (orderAt_of_setSlot_none ha).2 (orderAt_of_setSlot_none hb).2
    · refine (hslots i).trans ⟨fun ⟨a, ha, hf⟩ => ?_, fun ⟨a, ha, hf⟩ => ⟨a, (orderAt_of_setSlot_none ha).2, hf⟩⟩
      exact absurd ((hslots i).mpr ⟨a, ha, hf⟩) (by simp [hnone])
    · exact hempty i a (orderAt_of_setSlot_none ha).2
  · rw [heq]
    have hsame : orderAt slot (setSlot slot (some p) { s with odu.finishedSlots := s.odu.finishedSlots ++ [slot] }) = some p :=
      orderAt_setSlot_same (s := { s with odu.finishedSlots := s.odu.finishedSlots ++ [slot] }) (orderAt_lt ho) _
    have hcases {i : Nat} {a : Order}
        (ha : orderAt i (setSlot slot (some p) { s with odu.finishedSlots := s.odu.finishedSlots ++ [slot] }) = some a) :
        slot = i ∧ a = p ∨ slot ≠ i ∧ orderAt i s = some a := orderAt_of_setSlot ha
    have hnumberAt {i : Nat} {a : Order}
        (ha : orderAt i (setSlot slot (some p) { s with odu.finishedSlots := s.odu.finishedSlots ++ [slot] }) = some a) :
        ∃ b, orderAt i s = some b ∧ a.callNumber = b.callNumber := by
      rcases hcases ha with ⟨rfl, rfl⟩ | ⟨-, ha⟩
      · exact ⟨o, ho, hnumber⟩
      · exact ⟨a, ha, rfl⟩
    refine ⟨⟨by simpa using hlength, fun i j a b ha hb hsa hsb => ?_, fun i j a b ha hb hab => ?_, ?_, fun i => ?_, fun i a ha hf => ?_,
      fun _ => Nat.le_antisymm hrsq hnoRoom⟩, hrsq, hrbq⟩
    · rcases hcases ha with ⟨-, rfl⟩ | ⟨-, ha⟩
      · exact absurd (hp.symm.trans hsa) nofun
      · rcases hcases hb with ⟨-, rfl⟩ | ⟨-, hb⟩
        · exact absurd (hp.symm.trans hsb) nofun
        · exact hone i j a b ha hb hsa hsb
    · obtain ⟨a', ha', hna⟩ := hnumberAt ha
      obtain ⟨b', hb', hnb⟩ := hnumberAt hb
      exact hnumbers i j a' b' ha' hb' (hna.symm.trans (hab.trans hnb))
    · exact List.nodup_append.mpr ⟨hnodup, List.nodup_singleton slot, fun a ha b hb => by
        rw [List.mem_singleton.mp hb]
        rintro rfl
        exact hnotWaiting ha⟩
    · constructor
      · intro hi
        rcases List.mem_append.mp hi with hi | hi
        · obtain ⟨a, ha, hf⟩ := (hslots i).mp hi
          have hne : slot ≠ i := fun heq => hnotWaiting (heq ▸ hi)
          exact ⟨a, (orderAt_setSlot_other hne _ _).trans ha, hf⟩
        · rw [List.mem_singleton.mp hi]
          exact ⟨p, hsame, hp⟩
      · rintro ⟨a, ha, hf⟩
        rcases hcases ha with ⟨rfl, -⟩ | ⟨-, ha⟩
        · exact List.mem_append_right _ (List.mem_singleton.mpr rfl)
        · exact List.mem_append_left _ ((hslots i).mpr ⟨a, ha, hf⟩)
    · rcases hcases ha with ⟨-, rfl⟩ | ⟨-, ha⟩
      · exact hbuffers
      · exact hempty i a ha hf

end
end Sys2Proof.Machine
end

section
/-! PROOF. The orders, results and read-backs owed stay sound from event to event (06 sections 6.1 to 6.8). -/

namespace Sys2Proof.Machine

section
variable {s t : State}

/-! ### The transmitter's events (R39, R48 to R50, R92) -/

theorem ordered_stage (source : Source) (h : Ordered s) : Ordered (stage source s) := by
  unfold stage
  dsimp only
  cases source with
  | fragment slot index => exact ordered_setPlace slot .staged (h.of_odu rfl)
  | allstop team => exact h.of_odu rfl
  | readback => exact h.of_odu rfl
  | presence flag => exact h.of_odu rfl

theorem ordered_arbitrate (h : Ordered s) : Ordered (arbitrate s) := by
  rcases arbitrate_cases s with heq | ⟨source, -, -, -, heq⟩
  · rwa [heq]
  · rw [heq]
    exact ordered_stage source (h.of_odu (by simp))

/-- What leaves the RBQ leaves the rest sound (R39, R105). -/
theorem ordered_rbq {rbq : List ReadbackEntry} (h : Ordered s) (hsub : rbq.Sublist s.odu.rbq) (hodu : t.odu = { s.odu with rbq := rbq }) :
    Ordered t := by
  obtain ⟨hfit, hrsq, hrbq, hnodup⟩ := h
  refine ⟨hfit.of_odu (by rw [hodu]) (by rw [hodu]) (by rw [hodu]), ?_⟩
  rw [hodu]
  exact ⟨hrsq, Nat.le_trans hsub.length_le hrbq, hnodup.sublist (hsub.map _)⟩

theorem ordered_leaveSource (source : Source) (h : Ordered s) : Ordered (leaveSource source s) := by
  cases source with
  | fragment slot index => exact ordered_setPlace slot .onAir h
  | allstop team => exact h
  | readback => exact ordered_rbq h (List.tail_sublist _) rfl
  | presence flag => exact h.of_odu rfl

theorem ordered_goOnAir (h : Ordered s) : Ordered (goOnAir s) := by
  unfold goOnAir
  split
  · exact h
  · exact ordered_leaveSource _ (h.of_odu rfl)

theorem ordered_giveBack (source : Source) (h : Ordered s) : Ordered (giveBack source s) := by
  cases source with
  | fragment slot index => exact ordered_setPlace slot .none (h.of_odu rfl)
  | allstop team => exact h
  | readback => exact h
  | presence flag => exact h

theorem ordered_withdraw (meant : Source → Bool) (h : Ordered s) : Ordered (withdraw meant s) := by
  rcases withdraw_cases meant s with heq | ⟨st, -, -, heq⟩
  · rwa [heq]
  · rw [heq]
    exact ordered_giveBack _ (h.of_odu (by simp))

theorem ordered_displace (old : Staged) (team : Team) (h : Ordered s) : Ordered (displace old team s) := by
  have hstaged : Ordered (stage (.allstop team) (giveBack old.source s)) := ordered_stage _ (ordered_giveBack _ h)
  unfold displace
  dsimp only
  split
  · split
    · exact ordered_goOnAir hstaged
    · exact hstaged
  · exact hstaged

theorem ordered_requestAllstop (team : Team) (h : Ordered s) : Ordered (requestAllstop team s) := by
  unfold requestAllstop
  split
  · exact h.of_odu rfl
  · split
    · exact h.of_odu rfl
    · split
      · split
        · exact h
        · exact h.of_odu rfl
      · exact ordered_displace _ team h

theorem ordered_startSeries (team : Team) (h : Ordered s) : Ordered (startSeries team s) :=
  ordered_requestAllstop _ (h.of_odu rfl)

/-! ### Orders (R92 to R101) -/

theorem orderAt_setPlace {i slot : Nat} {place : FragmentPlace} {o : Order} (h : orderAt i s = some o) :
    ∃ p, orderAt i (setPlace slot place s) = some { o with place := p } := by
  unfold setPlace
  split
  · exact ⟨_, h⟩
  · rename_i q hq
    by_cases hi : slot = i
    · subst hi
      cases h.symm.trans hq
      exact ⟨place, orderAt_setSlot_same (orderAt_lt h) _⟩
    · exact ⟨o.place, (orderAt_setSlot_other hi _ s).trans h⟩

/-- A withdrawal changes an order in its place only. -/
theorem orderAt_withdraw {i : Nat} {o : Order} (meant : Source → Bool) (h : orderAt i s = some o) :
    ∃ p, orderAt i (withdraw meant s) = some { o with place := p } := by
  rcases withdraw_cases meant s with heq | ⟨st, -, -, heq⟩
  · exact ⟨_, heq ▸ h⟩
  · have hempty : orderAt i (emptyStaging s) = some o := (orderAt_of_ool (by simp) i).trans h
    rw [heq]
    cases st.source with
    | fragment slot index => exact orderAt_setPlace (s := refundCredit (emptyStaging s)) hempty
    | allstop team => exact ⟨_, hempty⟩
    | readback => exact ⟨_, hempty⟩
    | presence flag => exact ⟨_, hempty⟩

/-- R101: a live order finishes. -/
theorem ordered_finishOrder {slot : Nat} {o : Order} (outcome : OrderOutcome) (h : Ordered s) (ho : orderAt slot s = some o)
    (hlive : o.state ≠ .finished) : Ordered (finishOrder slot outcome s) := by
  obtain ⟨w, hw, heq⟩ := finishOrder_of_order ho outcome
  have hwithdrawn : Ordered w ∧ ∃ p, orderAt slot w = some { o with place := p } := by
    rcases hw with rfl | ⟨rfl, -⟩
    · exact ⟨h, _, ho⟩
    · exact ⟨ordered_withdraw _ h, orderAt_withdraw _ ho⟩
  obtain ⟨hordered, p, hp⟩ := hwithdrawn
  rw [heq]
  exact ordered_promote (ordered_offerResult (o := { o with place := p }) (hordered.of_odu rfl) hp hlive rfl rfl rfl)

theorem ordered_setSlot_finishOrder {slot : Nat} {o p : Order} (outcome : OrderOutcome) (h : Ordered s) (ho : orderAt slot s = some o)
    (hlive : o.state ≠ .finished) (hnumber : p.callNumber = o.callNumber) (hstate : p.state = o.state)
    (hbuffers : p.buffers = o.buffers) : Ordered (finishOrder slot outcome (setSlot slot (some p) s)) :=
  ordered_finishOrder outcome (ordered_setSlot_same h ho hnumber hstate hbuffers) (orderAt_setSlot_same (orderAt_lt ho) _)
    (hstate ▸ hlive)

theorem ordered_endAttempt {slot : Nat} {o : Order} (h : Ordered s) (ho : orderAt slot s = some o) (hlive : o.state ≠ .finished) :
    Ordered (endAttempt slot o s) := by
  unfold endAttempt
  split
  · exact ordered_finishOrder _ h ho hlive
  · split
    · exact ordered_finishOrder _ h ho hlive
    · split
      · exact ordered_finishOrder _ h ho hlive
      · exact ordered_promote (ordered_setSlot_live h ho hlive rfl rfl ⟨nofun, nofun⟩)

theorem ordered_fragmentCompleted (slot index : Nat) (h : Ordered s) : Ordered (fragmentCompleted slot index s) := by
  unfold fragmentCompleted
  split
  · exact h
  · rename_i o ho
    split
    · rename_i hcompleted
      obtain ⟨hsending, -, -⟩ := hcompleted
      have hlive : o.state ≠ .finished := by simp [hsending]
      have hset : Ordered (setSlot slot (some { o with place := .none }) s) := ordered_setSlot_same h ho rfl rfl rfl
      have hat : orderAt slot (setSlot slot (some { o with place := .none }) s) = some { o with place := .none } :=
        orderAt_setSlot_same (orderAt_lt ho) _
      dsimp only
      split
      · exact ordered_finishOrder _ hset hat hlive
      · split
        · exact ordered_setSlot_same hset hat rfl rfl rfl
        · exact ordered_endAttempt hset hat hlive
    · exact h

theorem ordered_waitExpired (slot : Nat) (h : Ordered s) (hdue : waitDue slot s = true) : Ordered (waitExpired slot s) := by
  unfold waitExpired
  split
  · exact h
  · rename_i o ho
    simp only [waitDue, ho, Bool.and_eq_true, decide_eq_true_eq] at hdue
    obtain ⟨-, hstate, -⟩ := hdue
    have hlive : o.state ≠ .finished := by simp [hstate]
    split
    · exact ordered_promote (ordered_setSlot_live (s := paceDecrease s) (h.of_odu rfl) ho hlive rfl rfl ⟨nofun, nofun⟩)
    · exact ordered_finishOrder _ h ho hlive

theorem ordered_memberAnswered {slot : Nat} {o : Order} (station : Station) (v : Verdict) (h : Ordered s)
    (ho : orderAt slot s = some o) (hlive : o.state ≠ .finished) : Ordered (memberAnswered slot o station v s) := by
  have hrate : Ordered (if v = .accepted then paceIncrease s else s) ∧
      orderAt slot (if v = .accepted then paceIncrease s else s) = some o := by
    split
    · exact ⟨h.of_odu rfl, ho⟩
    · exact ⟨h, ho⟩
  obtain ⟨hordered, ho'⟩ := hrate
  unfold memberAnswered
  dsimp only
  split
  · exact ordered_setSlot_finishOrder _ hordered ho' hlive rfl rfl rfl
  · exact ordered_setSlot_same hordered ho' rfl rfl rfl

theorem ordered_readbackArrived (b : Burst) (h : Ordered s) : Ordered (readbackArrived b s) := by
  unfold readbackArrived
  split
  · rename_i slot o v hslot hv
    split
    · obtain ⟨ho, hlive, -⟩ := findSlot_some hslot
      exact ordered_memberAnswered _ _ h ho (liveWith_iff.mp hlive).2
    · exact h.of_odu rfl
  · exact h.of_odu rfl

theorem ordered_cancelOrder {slot : Nat} {o : Order} (h : Ordered s) (ho : orderAt slot s = some o) (hlive : o.state ≠ .finished) :
    Ordered (cancelOrder slot o s) := by
  unfold cancelOrder
  split
  · exact ordered_setSlot_same h ho rfl rfl rfl
  · exact ordered_finishOrder _ h ho hlive

/-- R86, R89: the new order's number is held by none, and it is QUEUED before the oldest becomes SENDING. -/
theorem ordered_acceptOrder {slot : Nat} (sub : Submission) (h : Ordered s) (hslot : firstEmpty s.odu.ool = some slot) :
    Ordered (acceptOrder slot sub s) := by
  obtain ⟨hlt, hempty, -⟩ := firstEmpty_some hslot
  obtain ⟨⟨hlength, hone, hnumbers, hnodup, hslots, hbuffers, hfull⟩, hqueues⟩ := h
  obtain ⟨-, -, -, hfree, -⟩ := nextNumber_spec (Nat.le_of_eq hlength)
  have hfresh {i : Nat} {a : Order} (ha : orderAt i s = some a) : a.callNumber ≠ (newOrder sub s).callNumber := fun heq =>
    absurd ((numberInUse_iff.mpr ⟨a, mem_inUse_of_slotAt ha, heq⟩).symm.trans hfree) nofun
  refine ordered_promote ⟨?_, hqueues⟩
  refine ⟨by simpa using hlength, fun i j a b ha hb hsa hsb => ?_, fun i j a b ha hb hab => ?_, hnodup, fun i => ?_, fun i a ha hf => ?_,
    hfull⟩
  · rcases orderAt_of_setSlot ha with ⟨-, rfl⟩ | ⟨-, ha⟩
    · cases hsa
    · rcases orderAt_of_setSlot hb with ⟨-, rfl⟩ | ⟨-, hb⟩
      · cases hsb
      · exact hone i j a b ha hb hsa hsb
  · rcases orderAt_of_setSlot ha with ⟨rfl, rfl⟩ | ⟨-, ha⟩ <;> rcases orderAt_of_setSlot hb with ⟨rfl, rfl⟩ | ⟨-, hb⟩
    · rfl
    · exact absurd hab.symm (hfresh hb)
    · exact absurd hab (hfresh ha)
    · exact hnumbers i j a b ha hb hab
  · refine (hslots i).trans ⟨fun ⟨a, ha, hf⟩ => ?_, fun ⟨a, ha, hf⟩ => ?_⟩
    · have hi : slot ≠ i := by
        rintro rfl
        cases hempty.symm.trans ha
      exact ⟨a, (orderAt_setSlot_other hi _ _).trans ha, hf⟩
    · rcases orderAt_of_setSlot ha with ⟨-, rfl⟩ | ⟨-, ha⟩
      · cases hf
      · exact ⟨a, ha, hf⟩
  · rcases orderAt_of_setSlot ha with ⟨-, rfl⟩ | ⟨-, ha⟩
    · cases hf
    · exact hbuffers i a ha hf

/-- R103: a result is taken, and the one that waited longest takes its place. -/
theorem ordered_takeResult {r : ResultRecord} {rest : List ResultRecord} (h : Ordered s) (hr : s.odu.rsq = r :: rest) :
    Ordered (moveHeldResult { s with odu.rsq := rest }) := by
  obtain ⟨⟨hlength, hone, hnumbers, hnodup, hslots, hbuffers, hfull⟩, hrsq, hrbq⟩ := h
  rw [hr, List.length_cons] at hrsq
  rcases moveHeldResult_cases { s with odu.rsq := rest } with ⟨hnone, heq⟩ | ⟨slot, waiting, hwait, hcases⟩
  · rw [heq]
    exact ⟨⟨hlength, hone, hnumbers, hnodup, hslots, hbuffers, fun hne => absurd hnone hne⟩, Nat.le_of_succ_le hrsq, hrbq⟩
  · have hfinished : s.odu.finishedSlots = slot :: waiting := hwait
    have hrest : rest.length = 7 := by
      have height := hfull (by simp [hfinished])
      rw [hr, List.length_cons] at height
      omega
    obtain ⟨q, hq, hqf⟩ := (hslots slot).mp (by simp [hfinished])
    rcases hcases with ⟨hnone, -⟩ | ⟨o, ho, heq⟩
    · cases hq.symm.trans hnone
    · rw [heq]
      rw [hfinished, List.nodup_cons] at hnodup
      obtain ⟨hslot, hnodup⟩ := hnodup
      refine ⟨⟨by simpa using hlength, fun i j a b ha hb => ?_, fun i j a b ha hb => ?_, hnodup, fun i => ?_, fun i a ha => ?_, fun _ => ?_⟩,
        ?_, hrbq⟩
      · exact hone i j a b (orderAt_of_setSlot_none ha).2 (orderAt_of_setSlot_none hb).2
      · exact hnumbers i j a b (orderAt_of_setSlot_none ha).2 (orderAt_of_setSlot_none hb).2
      · constructor
        · intro hi
          obtain ⟨a, ha, hf⟩ := (hslots i).mp (by rw [hfinished]; exact List.mem_cons_of_mem _ hi)
          have hne : slot ≠ i := by
            rintro rfl
            exact hslot hi
          exact ⟨a, (orderAt_setSlot_other hne _ _).trans ha, hf⟩
        · rintro ⟨a, ha, hf⟩
          obtain ⟨hne, ha⟩ := orderAt_of_setSlot_none ha
          have hmem := (hslots i).mpr ⟨a, ha, hf⟩
          rw [hfinished] at hmem
          exact (List.mem_cons.mp hmem).resolve_left fun heq => hne heq.symm
      · exact hbuffers i a (orderAt_of_setSlot_none ha).2
      · simp [hrest]
      · simp [hrest]

/-! ### Read-backs owed for a call (R104) -/

/-- A read-back at most joins the RBQ, if it has room and owes none for that call of that sender. -/
def OwesOneMore (before after : Odu) : Prop :=
  after = before ∨ ∃ e, before.rbq.length < 8 ∧ (∀ x ∈ before.rbq, ¬(x.sender = e.sender ∧ x.callNumber = e.callNumber)) ∧
    after = { before with rbq := before.rbq ++ [e] }

theorem owes_offerIfConfirm (c : Context) (d : Digest) (v : Verdict) (s : State) : OwesOneMore s.odu (offerIfConfirm c d v s).odu := by
  unfold offerIfConfirm
  split
  · rcases offerReadback_cases (readbackFor c d v) s with heq | ⟨hroom, hnew, heq⟩
    · exact .inl (by rw [heq])
    · exact .inr ⟨_, hroom, hnew, by rw [heq]⟩
  · exact .inl rfl

theorem owes_deliverPartActed (i : Nat) (c : Context) (d : Digest) (v : Verdict) (index : Nat) (stamp : Stamp) (s : State) :
    OwesOneMore s.odu (deliverPartActed i c d v index stamp s).odu := by
  have howes := owes_offerIfConfirm c d v s
  unfold deliverPartActed
  dsimp only
  split
  · split
    · simpa using howes
    · simpa using howes
  · simpa using howes

theorem owes_deliverProcessorActed (i : Nat) (c : Context) (d : Digest) (v : Verdict) (index : Nat) (stamp : Stamp) (s : State) :
    OwesOneMore s.odu (deliverProcessorActed i c d v index stamp s).odu := by
  unfold deliverProcessorActed
  split
  · split
    · simpa using owes_offerIfConfirm c d v (placeRecord i c stamp s)
    · exact .inl (by simp)
  · simpa using owes_offerIfConfirm c d v s

theorem owes_completeCall (i : Nat) (c : Context) (index : Nat) (stamp : Stamp) (s : State) :
    OwesOneMore s.odu (completeCall i c index stamp s).odu := by
  unfold completeCall
  split
  · exact .inl (by simp)
  · dsimp only
    split
    · rename_i v _
      have howes := owes_offerIfConfirm c (callDigest c s) v (countDuplicate (abandon i c s))
      unfold completeDuplicate
      dsimp only
      split
      · simpa using howes
      · simpa using howes
    · unfold completeNew
      dsimp only
      split
      · simpa using owes_deliverPartActed i c (callDigest c s) _ index stamp (decideVerdict c.sender c.callType s).2
      · simpa using owes_deliverProcessorActed i c (callDigest c s) _ index stamp (decideVerdict c.sender c.callType s).2

theorem owes_startCall (b : Burst) (stamp : Stamp) (s : State) : OwesOneMore s.odu (startCall b stamp s).odu := by
  unfold startCall
  split
  · exact .inl (by simp)
  · split
    · exact .inl (by simp)
    · rename_i buffer _ _
      dsimp only
      split
      · exact .inl (by simp)
      · split
        · simpa using owes_completeCall _ (contextFrom b buffer stamp) 0 stamp (takeBuffer buffer b.body s)
        · exact .inl (by simp)

theorem owes_callArrived (b : Burst) (stamp : Stamp) (s : State) : OwesOneMore s.odu (callArrived b stamp s).odu := by
  unfold callArrived
  split
  · split
    · unfold fragmentZero
      split
      · split
        · exact .inl (by simp)
        · rename_i i c _ _
          simpa using owes_startCall b stamp
            (abandon i c (raiseException (exceptionFor .superseded c.sender c.callNumber c.next stamp) s))
      · exact owes_startCall b stamp s
    · unfold laterFragment
      split
      · exact .inl (by simp)
      · rename_i i c _
        split
        · exact .inl (by simp)
        · split
          · exact .inl (by simp)
          · unfold takeInOrder
            split
            · exact .inl (by simp)
            · split
              · exact .inl (by simp)
              · rename_i buffer _ _
                dsimp only
                split
                · simpa using owes_completeCall i _ b.index.toNat stamp (takeBuffer buffer b.body s)
                · exact .inl (by simp)
  · split
    · exact .inl (by simp)
    · exact .inl rfl

theorem ordered_of_owes (h : Ordered s) (howes : OwesOneMore s.odu t.odu) : Ordered t := by
  rcases howes with heq | ⟨e, hroom, hnew, heq⟩
  · exact h.of_odu heq
  · obtain ⟨hfit, hrsq, -, hnodup⟩ := h
    refine ⟨hfit.of_odu (by rw [heq]) (by rw [heq]) (by rw [heq]), ?_⟩
    rw [heq]
    refine ⟨hrsq, by simpa using hroom, ?_⟩
    rw [List.map_append, List.nodup_append]
    refine ⟨hnodup, List.nodup_singleton _, fun a ha b hb => ?_⟩
    obtain ⟨x, hx, rfl⟩ := List.mem_map.mp ha
    rw [List.mem_singleton.mp hb]
    exact fun hkey => hnew x hx (Prod.mk.inj hkey)

theorem ordered_routeHomeBurst (b : Burst) (stamp : Stamp) (h : Ordered s) : Ordered (routeHomeBurst b stamp s) := by
  unfold routeHomeBurst
  split
  · exact ordered_of_owes h (owes_callArrived b stamp s)
  · split
    · exact ordered_readbackArrived b h
    · exact h
  · exact h.of_odu (by simp)
  · exact h.of_odu (by simp)

theorem ordered_classify (octets : List Byte) (stamp : Stamp) (h : Ordered s) : Ordered (classify octets stamp s) := by
  obtain ⟨heard, ⟨rxc, crowdedHeard, rfl⟩, hcases⟩ := classify_cases octets stamp s
  have hheard : Ordered (heardState rxc crowdedHeard s) := h.of_odu rfl
  rcases hcases with heq | heq | heq | ⟨-, -, heq⟩
  · exact heq ▸ hheard
  · exact heq ▸ hheard.of_odu rfl
  · exact heq ▸ hheard.of_odu (by simp)
  · exact heq ▸ ordered_routeHomeBurst _ stamp (hheard.of_odu (by simp))

/-! ### Completions, the team and start-up -/

theorem ordered_requestPresence (flag : PresenceFlag) (h : Ordered s) : Ordered (requestPresence flag s) :=
  ordered_withdraw _ (h.of_odu rfl)

theorem ordered_clearTeam (h : Ordered s) : Ordered (clearTeam s) :=
  ordered_withdraw _ (ordered_rbq h (List.nil_sublist _) (by simp))

theorem ordered_joined (team : Team) (h : Ordered s) : Ordered (joined team s) :=
  have hcleared : Ordered (clearTeam { s with tmu.leavePending := false }) := ordered_clearTeam (h.of_odu rfl)
  ordered_requestPresence .joining (hcleared.of_odu rfl)

theorem ordered_presenceCompleted (flag : PresenceFlag) (h : Ordered s) : Ordered (presenceCompleted flag s) := by
  cases flag with
  | normal => exact h
  | joining => exact h.of_odu rfl
  | leaving =>
    unfold presenceCompleted
    dsimp only
    split
    · exact (ordered_clearTeam h).of_odu rfl
    · exact h

theorem ordered_allstopCompleted (h : Ordered s) : Ordered (allstopCompleted s) := by
  unfold allstopCompleted
  split
  · exact h
  · split
    · exact h.of_odu rfl
    · exact ordered_requestAllstop _ (h.of_odu rfl)

theorem ordered_reportCompletion (source : Source) (h : Ordered s) : Ordered (reportCompletion source s) := by
  have hsilent : Ordered { s with tmu.presenceCount := 0 } := h.of_odu rfl
  cases source with
  | allstop team => exact ordered_allstopCompleted hsilent
  | readback => exact hsilent
  | presence flag => exact ordered_presenceCompleted flag hsilent
  | fragment slot index => exact ordered_fragmentCompleted slot index hsilent

theorem ordered_leaveOnAir (h : Ordered s) : Ordered (leaveOnAir s) := by
  unfold leaveOnAir
  split
  · split
    · exact ordered_goOnAir h
    · exact h.of_odu rfl
  · exact h.of_odu rfl

theorem ordered_onAirCompleted (h : Ordered s) : Ordered (onAirCompleted s) := by
  unfold onAirCompleted
  split
  · exact ordered_leaveOnAir (ordered_reportCompletion _ (h.of_odu rfl))
  · exact h

theorem ordered_gapCompleted (h : Ordered s) : Ordered (gapCompleted s) := by
  unfold gapCompleted
  split
  · exact ordered_goOnAir h
  · exact h.of_odu rfl

theorem ordered_slotCompleted (h : Ordered s) : Ordered (slotCompleted s) := by
  unfold slotCompleted
  dsimp only
  split
  · exact ordered_goOnAir (h.of_odu rfl)
  · exact h.of_odu rfl

theorem ordered_forceExpired (h : Ordered s) : Ordered (forceExpired s) := by
  unfold forceExpired
  split
  · exact h.of_odu rfl
  · exact ordered_goOnAir h

/-- All slots empty, nothing offered and nothing owed, as at reset and at entry (R106). -/
theorem ordered_of_empty {number : CallNumber} (h : t.odu = { Odu.reset with callNumber := number }) : Ordered t := by
  have hempty (i : Nat) : orderAt i t = none := by
    simp only [orderAt, h, Odu.reset, slotAt, List.getD_eq_getElem?_getD, List.getElem?_replicate]
    split <;> rfl
  refine ⟨⟨by rw [h]; rfl, fun i j a b ha => ?_, fun i j a b ha => ?_, by rw [h]; exact List.nodup_nil, fun i => ?_, fun i a ha => ?_, ?_⟩, ?_⟩
  · cases (hempty i).symm.trans ha
  · cases (hempty i).symm.trans ha
  · simp [h, Odu.reset, hempty]
  · cases (hempty i).symm.trans ha
  · simp [h, Odu.reset]
  · simp [QueuesFit, h, Odu.reset]

theorem restartRunning_odu (s : State) : (restartRunning s).odu = { Odu.reset with callNumber := s.odu.callNumber } := by
  unfold restartRunning
  dsimp only
  split
  · rw [(putNoHolder_frame s).2.2.2.2.2.2.1]
  · rfl

theorem ordered_octetRead (x : Byte) (h : Ordered s) : Ordered (octetRead x s) := by
  unfold octetRead checkBlock
  dsimp only
  split
  · split
    · exact h.of_odu rfl
    · split
      · exact h.of_odu rfl
      · exact ordered_of_empty rfl
  · exact h.of_odu rfl

/-! ### A millisecond -/

theorem orderAt_tickTimers (i : Nat) (s : State) : orderAt i (tickTimers s) = (orderAt i s).map Order.tick :=
  slotAt_map (g := Option.map Order.tick) rfl s.odu.ool i

theorem orderAt_tick_some {i : Nat} {o : Order} (h : orderAt i (tick s) = some o) :
    ∃ p, orderAt i s = some p ∧ (o = p ∨ o = p.tick) := by
  unfold tick at h
  dsimp only at h
  split at h
  · obtain ⟨p, hp, rfl⟩ := Option.map_eq_some_iff.mp ((orderAt_tickTimers i s).symm.trans h)
    exact ⟨p, hp, .inr rfl⟩
  · exact ⟨o, h, .inl rfl⟩

theorem ordered_tick (h : Ordered s) : Ordered (tick s) := by
  unfold tick
  dsimp only
  split
  · obtain ⟨⟨hlength, hone, hnumbers, hnodup, hslots, hbuffers, hfull⟩, hqueues⟩ := h
    have hat {i : Nat} {a : Order} : orderAt i (tickTimers s) = some a ↔ ∃ p, orderAt i s = some p ∧ p.tick = a := by
      rw [orderAt_tickTimers, Option.map_eq_some_iff]
    have hticked : Ordered (tickTimers s) := by
      refine ⟨⟨by simpa [tickTimers] using hlength, fun i j a b ha hb hsa hsb => ?_, fun i j a b ha hb hab => ?_, hnodup, fun i => ?_,
        fun i a ha hf => ?_, hfull⟩, hqueues⟩
      · obtain ⟨p, hp, rfl⟩ := hat.mp ha
        obtain ⟨q, hq, rfl⟩ := hat.mp hb
        exact hone i j p q hp hq hsa hsb
      · obtain ⟨p, hp, rfl⟩ := hat.mp ha
        obtain ⟨q, hq, rfl⟩ := hat.mp hb
        exact hnumbers i j p q hp hq hab
      · refine (hslots i).trans ⟨fun ⟨a, ha, hf⟩ => ⟨a.tick, hat.mpr ⟨a, ha, rfl⟩, hf⟩, fun ⟨a, ha, hf⟩ => ?_⟩
        obtain ⟨p, hp, rfl⟩ := hat.mp ha
        exact ⟨p, hp, hf⟩
      · obtain ⟨p, hp, rfl⟩ := hat.mp ha
        exact hbuffers i p hp hf
    exact hticked.of_odu rfl
  · exact h.of_odu rfl

end

/-! ### Every effect -/

theorem ordered_quiet {s effect : State} (hq : Quiet s effect) (h : Ordered s) : Ordered effect := by
  cases hq with
  | reset => exact ordered_of_empty (number := 0) rfl
  | load hr => exact h.of_odu rfl
  | noMemory hr => exact h.of_odu rfl
  | aging hr => exact h.of_odu (by simp [ageContexts_frame { s with asu.agingMs := s.asu.agingMs - 100 }])
  | takeResult r rest hr hrsq => exact ordered_takeResult h hrsq
  | nothing => exact h
  | _ => exact h.of_odu (by simp)

theorem ordered_stirring {s effect : State} (hs : Stirring s effect) (h : Ordered s) : Ordered effect := by
  cases hs with
  | octet x => exact ordered_octetRead x h
  | burst octets stamp => exact ordered_classify octets stamp h
  | pace => exact h.of_odu rfl
  | gap hdue => exact ordered_gapCompleted h
  | slot hdue => exact ordered_slotCompleted h
  | completion hdue => exact ordered_onAirCompleted h
  | force hdue => exact ordered_forceExpired h
  | wait slot hdue => exact ordered_waitExpired slot h hdue
  | presence => exact h.of_odu (by simp)
  | series pressed team => exact ordered_startSeries team (h.of_odu rfl)
  | submit slot sub hr hslot => exact ordered_acceptOrder sub h hslot
  | cancel slot o hr ho hlive => exact ordered_cancelOrder h ho hlive
  | join team => exact ordered_joined team h
  | leave => exact ordered_requestPresence _ (h.of_odu rfl)
  | restart hr => exact ordered_of_empty (restartRunning_odu s)

theorem ordered_looksInside : LooksInside Ordered :=
  ⟨fun _ h => h.of_odu rfl, fun _ _ h => h.of_odu rfl, fun _ _ h => h.of_odu rfl⟩

/-- The first part of O54. -/
theorem ordersSound_step {s t : State} (h : OrdersSound s) (hstep : step s = .next t) : OrdersSound t :=
  ordersSound_iff.mpr (step_keeps_of_effects ordered_looksInside (fun _ => ordered_tick) (fun _ _ => ordered_quiet)
    (fun _ _ hs h => ordered_arbitrate (ordered_stirring hs h)) (ordersSound_iff.mp h) hstep)

end Sys2Proof.Machine
end

section
/-! PROOF. The fragment places of the orders agree with the two registers, and a fragment on air stays so until the register lets it go
(06 section 6.3, R92). -/

namespace Sys2Proof.Machine

/-! ### The places, read slot by slot -/

def stagedSource (s : State) : Option Source := s.cau.staging.map Staged.source

/-- The places but for staged ones: only a SENDING order has a place, what stands on air is the burst given, and the orders of some slots
are on air, finished or gone. -/
structure Standing (slots : Nat → Prop) (air : Option OnAir) (s : State) : Prop where
  sending : ∀ i o, orderAt i s = some o → o.place ≠ .none → o.state = .sending
  onAir : ∀ i o, orderAt i s = some o → o.place = .onAir → ∃ b, air = some b ∧ b.source = .fragment i o.next
  held : ∀ i, slots i → ∀ o, orderAt i s = some o → o.place = .onAir ∨ o.state = .finished

/-- An order stands staged exactly when the staging register holds its next fragment. -/
def StagedFits (s : State) : Prop :=
  ∀ i index, stagedSource s = some (.fragment i index) ↔ ∃ o, orderAt i s = some o ∧ o.place = .staged ∧ o.next = index

/-- What PlacesAgree says, of a given on-air register, with the slots whose orders stay on air. -/
structure Placed (slots : Nat → Prop) (air : Option OnAir) (s : State) : Prop where
  standing : Standing slots air s
  fits : StagedFits s

/-- A state in which no order stands staged. -/
structure Unstaged (slots : Nat → Prop) (air : Option OnAir) (s : State) : Prop where
  standing : Standing slots air s
  none : ∀ i o, orderAt i s = some o → o.place ≠ .staged

theorem stagedSource_eq_some {s : State} {source : Source} :
    stagedSource s = some source ↔ ∃ st, s.cau.staging = some st ∧ st.source = source := Option.map_eq_some_iff

theorem placesAgree_iff {s : State} : PlacesAgree s ↔ Placed (fun _ => False) s.cau.onAir s := by
  constructor
  · rintro ⟨hsending, hstaged, hsource, honAir⟩
    refine ⟨⟨hsending, honAir, fun _ => False.elim⟩, fun i index => ?_⟩
    rw [stagedSource_eq_some]
    constructor
    · rintro ⟨st, hst, hs⟩
      exact hsource st i index hst hs
    · rintro ⟨o, ho, hp, rfl⟩
      exact hstaged i o ho hp
  · rintro ⟨⟨hsending, honAir, -⟩, hfits⟩
    exact ⟨hsending, fun i o ho hp => stagedSource_eq_some.mp ((hfits i o.next).mpr ⟨o, ho, hp, rfl⟩),
      fun st i index hst hs => (hfits i index).mp (stagedSource_eq_some.mpr ⟨st, hst, hs⟩), honAir⟩

section
variable {slots : Nat → Prop} {air : Option OnAir} {k : Bool} {s t : State}

theorem Standing.of_ool (h : Standing slots air s) (hool : t.odu.ool = s.odu.ool) : Standing slots air t := by
  obtain ⟨hsending, honAir, hheld⟩ := h
  constructor
  · simpa only [orderAt_of_ool hool] using hsending
  · simpa only [orderAt_of_ool hool] using honAir
  · simpa only [orderAt_of_ool hool] using hheld

theorem Placed.of_agree (h : Placed slots air s) (hool : t.odu.ool = s.odu.ool) (hstaged : stagedSource t = stagedSource s) :
    Placed slots air t := by
  obtain ⟨hstanding, hfits⟩ := h
  refine ⟨hstanding.of_ool hool, ?_⟩
  unfold StagedFits at hfits ⊢
  simpa only [orderAt_of_ool hool, hstaged] using hfits

theorem Placed.of_same (h : Placed slots air s) (hool : t.odu.ool = s.odu.ool) (hcau : t.cau = s.cau) : Placed slots air t :=
  h.of_agree hool (by rw [stagedSource, hcau]; rfl)

/-- Where no fragment stands in the staging register, no order stands staged. -/
theorem Placed.unstaged (h : Placed slots air s) (hnone : ∀ i index, stagedSource s ≠ some (.fragment i index)) :
    Unstaged slots air s :=
  ⟨h.standing, fun i o ho hp => hnone i o.next ((h.fits i o.next).mpr ⟨o, ho, hp, rfl⟩)⟩

theorem Unstaged.placed (h : Unstaged slots air s) (hnone : ∀ i index, stagedSource s ≠ some (.fragment i index)) :
    Placed slots air s :=
  ⟨h.standing, fun i index => ⟨fun hs => absurd hs (hnone i index), fun ⟨o, ho, hp, _⟩ => absurd hp (h.none i o ho)⟩⟩

theorem Unstaged.of_ool (h : Unstaged slots air s) (hool : t.odu.ool = s.odu.ool) : Unstaged slots air t := by
  refine ⟨h.standing.of_ool hool, ?_⟩
  simpa only [orderAt_of_ool hool] using h.none

theorem stagedSource_of_none (h : s.cau.staging = none) (source : Source) : stagedSource s ≠ some source := by
  simp [stagedSource, h]

/-! ### One slot written -/

theorem orderAt_setSlot_cases {slot i : Nat} {x : Option Order} {o : Order} (h : orderAt i (setSlot slot x s) = some o) :
    slot = i ∧ x = some o ∨ slot ≠ i ∧ orderAt i s = some o := by
  cases x with
  | none => exact .inr (orderAt_of_setSlot_none h)
  | some p =>
    rcases orderAt_of_setSlot h with ⟨hi, rfl⟩ | hother
    · exact .inl ⟨hi, rfl⟩
    · exact .inr hother

theorem standing_setSlot {slot : Nat} {x : Option Order} (h : Standing slots air s)
    (hsending : ∀ p, x = some p → p.place ≠ .none → p.state = .sending)
    (honAir : ∀ p, x = some p → p.place = .onAir → ∃ b, air = some b ∧ b.source = .fragment slot p.next)
    (hheld : ∀ p, x = some p → slots slot → p.place = .onAir ∨ p.state = .finished) :
    Standing slots air (setSlot slot x s) := by
  constructor
  · intro i o ho
    rcases orderAt_setSlot_cases ho with ⟨-, hx⟩ | ⟨-, ho⟩
    · exact hsending o hx
    · exact h.sending i o ho
  · intro i o ho
    rcases orderAt_setSlot_cases ho with ⟨rfl, hx⟩ | ⟨-, ho⟩
    · exact honAir o hx
    · exact h.onAir i o ho
  · intro i hi o ho
    rcases orderAt_setSlot_cases ho with ⟨rfl, hx⟩ | ⟨-, ho⟩
    · exact hheld o hx hi
    · exact h.held i hi o ho

/-- An order that changes in neither place, nor next fragment, nor state. -/
theorem standing_setSlot_same {slot : Nat} {o p : Order} (h : Standing slots air s) (ho : orderAt slot s = some o)
    (hplace : p.place = o.place) (hnext : p.next = o.next) (hstate : p.state = o.state) :
    Standing slots air (setSlot slot (some p) s) := by
  refine standing_setSlot h ?_ ?_ ?_ <;> rintro _ ⟨rfl⟩
  · rw [hplace, hstate]
    exact h.sending slot o ho
  · rw [hplace, hnext]
    exact h.onAir slot o ho
  · rw [hplace, hstate]
    exact fun hslot => h.held slot hslot o ho

theorem placed_setSlot_same {slot : Nat} {o p : Order} (h : Placed slots air s) (ho : orderAt slot s = some o)
    (hplace : p.place = o.place) (hnext : p.next = o.next) (hstate : p.state = o.state) :
    Placed slots air (setSlot slot (some p) s) := by
  refine ⟨standing_setSlot_same h.standing ho hplace hnext hstate, fun i index => (h.fits i index).trans ?_⟩
  by_cases hi : slot = i
  · subst hi
    rw [orderAt_setSlot_same (orderAt_lt ho)]
    simp [ho, hplace, hnext]
  · rw [orderAt_setSlot_other hi]

/-- An order that does not stand staged, or none, gives way to one that stands nowhere, or to none. -/
theorem placed_setSlot_nowhere {slot : Nat} {x : Option Order} (h : Placed slots air s)
    (ho : ∀ o, orderAt slot s = some o → o.place ≠ .staged) (hplace : ∀ p, x = some p → p.place = .none)
    (hheld : ∀ p, x = some p → slots slot → p.state = .finished) : Placed slots air (setSlot slot x s) := by
  refine ⟨standing_setSlot h.standing (fun p hp hn => absurd (hplace p hp) hn) (fun p hp hair => ?_)
    (fun p hp hslot => .inr (hheld p hp hslot)), fun i index => (h.fits i index).trans ?_⟩
  · cases (hplace p hp).symm.trans hair
  · constructor
    · rintro ⟨o, hat, hp, hn⟩
      have hi : slot ≠ i := by
        rintro rfl
        exact ho o hat hp
      exact ⟨o, (orderAt_setSlot_other hi _ _).trans hat, hp, hn⟩
    · rintro ⟨o, hat, hp, hn⟩
      rcases orderAt_setSlot_cases hat with ⟨-, hx⟩ | ⟨-, hat⟩
      · cases (hplace o hx).symm.trans hp
      · exact ⟨o, hat, hp, hn⟩

/-! ### Giving back and withdrawal (R49, R50, R92) -/

/-- The staged burst given back, no order stands staged. -/
theorem unstaged_giveBack {source : Source} (h : Placed slots air s) (hs : stagedSource s = some source) :
    Unstaged slots air (giveBack source s) := by
  have hother {source : Source} (hs : stagedSource s = some source) (hf : isFragment source = false) : Unstaged slots air s :=
    h.unstaged fun i index heq => by
      cases hs.symm.trans heq
      cases hf
  cases source with
  | allstop team => exact hother hs rfl
  | readback => exact hother hs rfl
  | presence flag => exact hother hs rfl
  | fragment slot index =>
    obtain ⟨o, ho, hp, -⟩ := (h.fits slot index).mp hs
    have hsending : o.state = .sending := h.standing.sending slot o ho (by simp [hp])
    have hnotHeld : ¬slots slot := by
      intro hslot
      rcases h.standing.held slot hslot o ho with hair | hf
      · cases hp.symm.trans hair
      · cases hsending.symm.trans hf
    have heq : giveBack (.fragment slot index) s = setSlot slot (some { o with place := .none }) (refundCredit s) :=
      setPlace_of_orderAt .none ho
    rw [heq]
    refine ⟨standing_setSlot (h.standing.of_ool rfl) ?_ ?_ ?_, ?_⟩
    · rintro _ ⟨rfl⟩ hn
      exact absurd rfl hn
    · rintro _ ⟨rfl⟩ hair
      cases hair
    · intro _ _ hslot
      exact absurd hslot hnotHeld
    · intro i q hq hqp
      rcases orderAt_setSlot_cases hq with ⟨-, hx⟩ | ⟨hne, hq⟩
      · cases hx
        cases hqp
      · have hfit := (h.fits i q.next).mpr ⟨q, hq, hqp, rfl⟩
        cases hs.symm.trans hfit
        exact hne rfl

theorem giveBack_staging (source : Source) (s : State) : (giveBack source s).cau.staging = s.cau.staging := by
  obtain ⟨credit, hcau⟩ := giveBack_cau source s
  rw [hcau]

theorem withdraw_staging (meant : Source → Bool) (s : State) :
    (withdraw meant s).cau.staging = s.cau.staging ∨ (withdraw meant s).cau.staging = none := by
  rcases withdraw_cases meant s with heq | ⟨st, -, -, heq⟩
  · exact .inl (by rw [heq])
  · right
    rw [heq, giveBack_staging]
    exact (emptyStaging_cau s).1

theorem setPlace_ool_congr {u : State} (slot : Nat) (place : FragmentPlace) (hool : u.odu.ool = s.odu.ool) :
    (setPlace slot place u).odu.ool = (setPlace slot place s).odu.ool := by
  simp only [setPlace, orderAt_of_ool hool]
  split
  · exact hool
  · simp only [setSlot, hool]

theorem giveBack_ool_congr {u : State} (source : Source) (hool : u.odu.ool = s.odu.ool) :
    (giveBack source u).odu.ool = (giveBack source s).odu.ool := by
  cases source with
  | fragment slot index => exact setPlace_ool_congr (s := refundCredit s) slot .none hool
  | allstop team => exact hool
  | readback => exact hool
  | presence flag => exact hool

theorem placed_withdraw (meant : Source → Bool) (h : Placed slots air s) : Placed slots air (withdraw meant s) := by
  rcases withdraw_cases meant s with heq | ⟨st, hst, -, heq⟩
  · rwa [heq]
  · have hgiven : Unstaged slots air (giveBack st.source s) := unstaged_giveBack h (stagedSource_eq_some.mpr ⟨st, hst, rfl⟩)
    rw [heq]
    refine (hgiven.of_ool (giveBack_ool_congr st.source (by simp))).placed fun i index => stagedSource_of_none ?_ _
    rw [giveBack_staging]
    exact (emptyStaging_cau s).1

/-- An order whose fragment is withdrawn stands staged no longer. -/
theorem not_staged_withdraw {slot : Nat} {o : Order} (h : Placed slots air s) (ho : orderAt slot s = some o) (hp : o.place = .staged) :
    ∀ q, orderAt slot (withdraw (isFragmentOf slot) s) = some q → q.place ≠ .staged := by
  obtain ⟨st, hst, hsource⟩ := stagedSource_eq_some.mp ((h.fits slot o.next).mpr ⟨o, ho, hp, rfl⟩)
  have hgiven : Unstaged slots air (giveBack st.source s) := unstaged_giveBack h (stagedSource_eq_some.mpr ⟨st, hst, rfl⟩)
  have heq : withdraw (isFragmentOf slot) s = giveBack st.source (emptyStaging s) := by
    simp [withdraw, hst, hsource, isFragmentOf]
  intro q hq
  rw [heq, orderAt_of_ool (giveBack_ool_congr (s := s) st.source (by simp))] at hq
  exact hgiven.none slot q hq

/-! ### Staging (R92) -/

/-- A source that no order's place contradicts: a fragment is the next one of a SENDING order that stands nowhere. -/
def StageFits (slots : Nat → Prop) (source : Source) (s : State) : Prop :=
  ∀ slot index, source = .fragment slot index →
    ∃ o, orderAt slot s = some o ∧ o.state = .sending ∧ o.place = .none ∧ o.next = index ∧ ¬slots slot

theorem stagedSource_stage (source : Source) (s : State) : stagedSource (stage source s) = some source := by
  obtain ⟨force, hstaging, -⟩ := stage_staging source s
  simp [stagedSource, hstaging]

theorem placed_stage {source : Source} (h : Unstaged slots air s) (hfit : StageFits slots source s) :
    Placed slots air (stage source s) := by
  have hother (hsame : (stage source s).odu.ool = s.odu.ool) (hf : isFragment source = false) : Placed slots air (stage source s) :=
    (h.of_ool hsame).placed fun i index heq => by
      cases (stagedSource_stage source s).symm.trans heq
      cases hf
  cases source with
  | allstop team => exact hother rfl rfl
  | readback => exact hother rfl rfl
  | presence flag => exact hother rfl rfl
  | fragment slot index =>
    obtain ⟨o, ho, hstate, hp, hn, hnotHeld⟩ := hfit slot index rfl
    have hool : (stage (.fragment slot index) s).odu.ool = (setSlot slot (some { o with place := .staged }) s).odu.ool := by
      rw [← setPlace_of_orderAt .staged ho]
      exact setPlace_ool_congr slot .staged rfl
    refine ⟨Standing.of_ool (standing_setSlot h.standing ?_ ?_ ?_) hool, fun i j => ?_⟩
    · rintro _ ⟨rfl⟩ -
      exact hstate
    · rintro _ ⟨rfl⟩ hair
      cases hair
    · intro _ _ hslot
      exact absurd hslot hnotHeld
    · rw [stagedSource_stage, orderAt_of_ool hool]
      constructor
      · rintro ⟨⟩
        exact ⟨_, orderAt_setSlot_same (orderAt_lt ho) _, rfl, hn⟩
      · rintro ⟨q, hq, hqp, rfl⟩
        rcases orderAt_setSlot_cases hq with ⟨rfl, hx⟩ | ⟨-, hq⟩
        · cases hx
          rw [← hn]
        · exact absurd hqp (h.none i q hq)

theorem placed_arbitrate (h : Placed slots air s) : Placed slots air (arbitrate s) := by
  rcases arbitrate_cases s with heq | ⟨source, -, hempty, hready, heq⟩
  · rwa [heq]
  · have hunstaged : Unstaged slots air s := h.unstaged fun i index => stagedSource_of_none hempty _
    have hnothing {source : Source} (hf : isFragment source = false) {u : State} : StageFits slots source u := by
      rintro slot index rfl
      cases hf
    rw [heq]
    cases source with
    | allstop team => exact placed_stage (hunstaged.of_ool rfl) (hnothing rfl)
    | readback => exact placed_stage hunstaged (hnothing rfl)
    | presence flag => exact placed_stage hunstaged (hnothing rfl)
    | fragment slot index =>
      refine placed_stage hunstaged ?_
      rintro _ _ ⟨rfl⟩
      rcases readyClass_some hready with ⟨_, -, hs⟩ | ⟨-, -, hs⟩ | ⟨-, -, _, -, hs⟩ | ⟨-, -, -, i, j, hfragment, hs⟩
      · cases hs
      · cases hs
      · cases hs
      · cases hs
        obtain ⟨o, ho, hstate, hp, hn, -⟩ := readyFragment_some hfragment
        refine ⟨o, ho, hstate, hp, hn, fun hslot => ?_⟩
        rcases h.standing.held slot hslot o ho with hair | hf
        · cases hp.symm.trans hair
        · cases hstate.symm.trans hf

/-! ### Going on air (R39, R92) -/

theorem Placed.any_air (h : Placed slots none s) (air : Option OnAir) : Placed slots air s := by
  obtain ⟨⟨hsending, honAir, hheld⟩, hfits⟩ := h
  refine ⟨⟨hsending, fun i o ho hp => ?_, hheld⟩, hfits⟩
  obtain ⟨b, hb, -⟩ := honAir i o ho hp
  cases hb

theorem goOnAir_onAir {st : Staged} (h : s.cau.staging = some st) :
    (goOnAir s).cau.onAir = some { burst := st.burst, source := st.source } := by
  rw [goOnAir_cau h]

theorem leaveSource_ool {source : Source} (hf : isFragment source = false) (u : State) :
    (leaveSource source u).odu.ool = u.odu.ool := by
  cases source with
  | fragment slot index => cases hf
  | allstop team => rfl
  | readback => rfl
  | presence flag => rfl

/-- With nothing on air the staged burst goes on air; its order, if it is a fragment, stands on air. -/
theorem placed_goOnAir (h : Placed slots none s) : Placed slots (goOnAir s).cau.onAir (goOnAir s) := by
  cases hst : s.cau.staging with
  | none =>
    rw [goOnAir_empty hst]
    exact h.any_air _
  | some st =>
    have hsource : stagedSource s = some st.source := by simp [stagedSource, hst]
    have hgone (i index : Nat) : stagedSource (goOnAir s) ≠ some (.fragment i index) :=
      stagedSource_of_none (by rw [goOnAir_cau hst]) _
    have hshape : ∃ u : State, u.odu.ool = s.odu.ool ∧ goOnAir s = leaveSource st.source u := by
      simp only [goOnAir, hst]
      refine ⟨_, ?_, rfl⟩
      rfl
    obtain ⟨u, hu, heq⟩ := hshape
    by_cases hf : isFragment st.source = true
    · obtain ⟨slot, index, hfragment⟩ : ∃ slot index, st.source = .fragment slot index := by
        cases hs : st.source with
        | fragment slot index => exact ⟨slot, index, rfl⟩
        | allstop team => simp [hs, isFragment] at hf
        | readback => simp [hs, isFragment] at hf
        | presence flag => simp [hs, isFragment] at hf
      obtain ⟨o, ho, hp, hn⟩ := (h.fits slot index).mp (hfragment ▸ hsource)
      have hsending : o.state = .sending := h.standing.sending slot o ho (by simp [hp])
      have hair : goOnAir s = setSlot slot (some { o with place := .onAir }) u := by
        rw [heq, hfragment]
        exact setPlace_of_orderAt .onAir ((orderAt_of_ool hu slot).trans ho)
      have hregister := goOnAir_onAir hst
      have hstanding : Standing slots (goOnAir s).cau.onAir (setSlot slot (some { o with place := .onAir }) u) := by
        refine standing_setSlot ((h.any_air _).standing.of_ool hu) ?_ ?_ ?_ <;> rintro _ ⟨rfl⟩
        · exact fun _ => hsending
        · exact fun _ => ⟨_, hregister, by rw [← hn] at hfragment; exact hfragment⟩
        · exact fun _ => .inl rfl
      refine Unstaged.placed ⟨?_, fun i q hq hqp => ?_⟩ hgone
      · rw [hair] at hstanding ⊢
        exact hstanding
      · rw [hair] at hq
        rcases orderAt_setSlot_cases hq with ⟨-, hx⟩ | ⟨hne, hq⟩
        · cases hx
          cases hqp
        · have hfit := (h.fits i q.next).mpr ⟨q, (orderAt_of_ool hu i).symm.trans hq, hqp, rfl⟩
          cases (hfragment ▸ hsource).symm.trans hfit
          exact hne rfl
    · have hf' : isFragment st.source = false := by simpa using hf
      have hunstaged : Unstaged slots none s := h.unstaged fun i index hi => by
        have hst' : st.source = .fragment i index := Option.some.inj (hsource.symm.trans hi)
        simp [hst', isFragment] at hf'
      have hool : (goOnAir s).odu.ool = s.odu.ool := by rw [heq, leaveSource_ool hf', hu]
      exact ((hunstaged.of_ool hool).placed hgone).any_air _

/-! ### All-stop requests (R48, R49) -/

theorem placed_displace {old : Staged} (team : Team) (h : Placed slots s.cau.onAir s) (hk : Keyed k s) (hold : s.cau.staging = some old) :
    Placed slots (displace old team s).cau.onAir (displace old team s) := by
  have hgiven : Unstaged slots s.cau.onAir (giveBack old.source s) := unstaged_giveBack h (stagedSource_eq_some.mpr ⟨old, hold, rfl⟩)
  have hstaged : Placed slots s.cau.onAir (stage (.allstop team) (giveBack old.source s)) := placed_stage hgiven (by rintro _ _ ⟨⟩)
  have hkeyed : Keyed k (stage (.allstop team) (giveBack old.source s)) :=
    keyed_stage (keyed_giveBack _ hk) (stageable_allstop team _)
  have honAir : (stage (.allstop team) (giveBack old.source s)).cau.onAir = s.cau.onAir := by simp
  unfold displace
  dsimp only
  split
  · split
    · rename_i hnow
      have hk : k = false := by
        cases k with
        | false => rfl
        | true => exact absurd (hkeyed.access.1.symm.trans hnow.1) (by decide)
      subst hk
      obtain ⟨-, hsilent⟩ := hkeyed.staged_of_access (.inr hnow.1)
      refine placed_goOnAir ?_
      rwa [← honAir, hsilent] at hstaged
    · rwa [honAir]
  · rwa [honAir]

theorem placed_requestAllstop (team : Team) (h : Placed slots s.cau.onAir s) (hk : Keyed k s) :
    Placed slots (requestAllstop team s).cau.onAir (requestAllstop team s) := by
  unfold requestAllstop
  split
  · exact h.of_agree rfl rfl
  · split
    · exact h.of_agree rfl rfl
    · rename_i st hst
      split
      · rename_i held hheld
        split
        · exact h
        · have hunstaged : Unstaged slots s.cau.onAir s := h.unstaged fun i index heq => by
            obtain ⟨q, hq, hsource⟩ := stagedSource_eq_some.mp heq
            cases hst.symm.trans hq
            cases hheld.symm.trans hsource
          refine Unstaged.placed (hunstaged.of_ool (s := s) rfl) fun i index heq => ?_
          cases heq
      · exact placed_displace team h hk hst

theorem placed_startSeries (team : Team) (h : Placed slots s.cau.onAir s) (hk : Keyed k s) :
    Placed slots (startSeries team s).cau.onAir (startSeries team s) :=
  placed_requestAllstop _ (h.of_same rfl rfl) (hk.of_cau rfl rfl)

/-! ### Orders (R90 to R103) -/

theorem placed_promote (h : Placed slots air s) : Placed slots air (promote s) := by
  rcases promote_cases s with heq | ⟨slot, o, -, holdest, heq⟩
  · rwa [heq]
  · obtain ⟨ho, hq⟩ := oldestQueued_some holdest
    have hnowhere : o.place = .none := by
      by_contra hp
      cases hq.symm.trans (h.standing.sending slot o ho hp)
    rw [heq]
    refine placed_setSlot_nowhere h ?_ ?_ ?_
    · intro q hat
      cases ho.symm.trans hat
      simp [hnowhere]
    · rintro _ ⟨rfl⟩
      rfl
    · intro _ _ hslot
      rcases h.standing.held slot hslot o ho with hair | hf
      · cases hnowhere.symm.trans hair
      · cases hq.symm.trans hf

theorem placed_offerResult {slot : Nat} {p : Order} (h : Placed slots air s) (ho : ∀ o, orderAt slot s = some o → o.place ≠ .staged)
    (hplace : p.place = .none) (hstate : p.state = .finished) : Placed slots air (offerResult slot p s) := by
  rcases offerResult_cases slot p s with ⟨-, heq⟩ | ⟨-, heq⟩
  · rw [heq]
    exact placed_setSlot_nowhere (h.of_same rfl rfl) ho nofun nofun
  · rw [heq]
    refine placed_setSlot_nowhere (h.of_same rfl rfl) ho ?_ ?_
    · rintro _ ⟨rfl⟩
      exact hplace
    · rintro _ ⟨rfl⟩ -
      exact hstate

theorem placed_finishOrder (slot : Nat) (outcome : OrderOutcome) (h : Placed slots air s) : Placed slots air (finishOrder slot outcome s) := by
  unfold finishOrder
  split
  · exact h
  · rename_i o ho
    dsimp only
    split
    · rename_i hp
      exact placed_promote (placed_offerResult ((placed_withdraw _ h).of_same rfl rfl) (not_staged_withdraw h ho hp) rfl rfl)
    · rename_i hp
      refine placed_promote (placed_offerResult (h.of_same rfl rfl) (fun q hq => ?_) rfl rfl)
      cases ho.symm.trans hq
      exact hp

/-- An order that waits or stands QUEUED stands nowhere, and goes on standing nowhere. -/
theorem placed_setSlot_idle {slot : Nat} {o p : Order} (h : Placed slots air s) (ho : orderAt slot s = some o) (hplace : o.place = .none)
    (hlive : o.state ≠ .finished) (hp : p.place = .none) : Placed slots air (setSlot slot (some p) s) := by
  refine placed_setSlot_nowhere h (fun q hq => ?_) ?_ ?_
  · cases ho.symm.trans hq
    simp [hplace]
  · rintro _ ⟨rfl⟩
    exact hp
  · intro _ _ hslot
    rcases h.standing.held slot hslot o ho with hair | hf
    · cases hplace.symm.trans hair
    · exact absurd hf hlive

theorem placed_waitExpired (slot : Nat) (h : Placed slots air s) (hdue : waitDue slot s = true) :
    Placed slots air (waitExpired slot s) := by
  unfold waitExpired
  split
  · exact h
  · rename_i o ho
    simp only [waitDue, ho, Bool.and_eq_true, decide_eq_true_eq] at hdue
    obtain ⟨-, hstate, -⟩ := hdue
    have hnowhere : o.place = .none := by
      by_contra hp
      cases hstate.symm.trans (h.standing.sending slot o ho hp)
    split
    · exact placed_promote (placed_setSlot_idle (s := paceDecrease s) (h.of_agree rfl rfl) ho hnowhere (by simp [hstate]) hnowhere)
    · exact placed_finishOrder slot _ h

theorem placed_memberAnswered {slot : Nat} {o : Order} (station : Station) (v : Verdict) (h : Placed slots air s)
    (ho : orderAt slot s = some o) : Placed slots air (memberAnswered slot o station v s) := by
  have hrate : Placed slots air (if v = .accepted then paceIncrease s else s) ∧
      orderAt slot (if v = .accepted then paceIncrease s else s) = some o := by
    split
    · exact ⟨h.of_agree rfl rfl, ho⟩
    · exact ⟨h, ho⟩
  have hset := placed_setSlot_same (p := { o with members := markAnswered station v o.members }) hrate.1 hrate.2 rfl rfl rfl
  unfold memberAnswered
  dsimp only
  split
  · exact placed_finishOrder slot _ hset
  · exact hset

theorem placed_readbackArrived (b : Burst) (h : Placed slots air s) : Placed slots air (readbackArrived b s) := by
  unfold readbackArrived
  split
  · rename_i slot o v hslot hv
    split
    · exact placed_memberAnswered _ _ h (findSlot_some hslot).1
    · exact h.of_same rfl rfl
  · exact h.of_same rfl rfl

theorem placed_cancelOrder {slot : Nat} {o : Order} (h : Placed slots air s) (ho : orderAt slot s = some o) :
    Placed slots air (cancelOrder slot o s) := by
  unfold cancelOrder
  split
  · exact placed_setSlot_same h ho rfl rfl rfl
  · exact placed_finishOrder slot _ h

/-- The new order stands nowhere, in a slot that was empty. -/
theorem placed_acceptOrder {slot : Nat} (sub : Submission) (h : Placed slots air s) (hslot : firstEmpty s.odu.ool = some slot)
    (hnotHeld : ¬slots slot) : Placed slots air (acceptOrder slot sub s) := by
  obtain ⟨-, hempty, -⟩ := firstEmpty_some hslot
  refine placed_promote (placed_setSlot_nowhere (h.of_agree rfl rfl) (fun o ho => ?_) ?_ fun _ _ hheld => absurd hheld hnotHeld)
  · cases hempty.symm.trans ho
  · rintro _ ⟨rfl⟩
    rfl

/-- R103: a FINISHED order, which stands nowhere, leaves its slot. -/
theorem placed_takeResult {rest : List ResultRecord} (h : Placed slots air s) (hw : FinishedHeld s) :
    Placed slots air (moveHeldResult { s with odu.rsq := rest }) := by
  rcases moveHeldResult_cases { s with odu.rsq := rest } with ⟨-, heq⟩ | ⟨slot, waiting, hwait, ⟨-, heq⟩ | ⟨o, ho, heq⟩⟩
  · rw [heq]
    exact h.of_same rfl rfl
  · rw [heq]
    exact h.of_same rfl rfl
  · have hfinished : s.odu.finishedSlots = slot :: waiting := hwait
    obtain ⟨-, hslots, -⟩ := hw
    obtain ⟨q, hq, hqf⟩ := (hslots slot).mp (by simp [hfinished])
    rw [heq]
    refine placed_setSlot_nowhere (h.of_same rfl rfl) (fun p hp hstaged => ?_) nofun nofun
    cases hq.symm.trans hp
    cases hqf.symm.trans (h.standing.sending slot q hq (by simp [hstaged]))

/-! ### Bursts received, the team (R14, R109, R110) -/

theorem placed_of_owes (h : Placed slots air s) (howes : OwesOneMore s.odu t.odu) (hcau : t.cau = s.cau) : Placed slots air t := by
  rcases howes with heq | ⟨e, -, -, heq⟩
  · exact h.of_same (by rw [heq]) hcau
  · exact h.of_same (by rw [heq]) hcau

theorem placed_routeHomeBurst (b : Burst) (stamp : Stamp) (h : Placed slots air s) : Placed slots air (routeHomeBurst b stamp s) := by
  unfold routeHomeBurst
  split
  · exact placed_of_owes h (owes_callArrived b stamp s) (by simp)
  · split
    · exact placed_readbackArrived b h
    · exact h
  · exact h.of_same (by simp) (by simp)
  · exact h.of_same (by simp) (by simp)

theorem placed_classify (octets : List Byte) (stamp : Stamp) (h : Placed slots air s) : Placed slots air (classify octets stamp s) := by
  obtain ⟨heard, ⟨rxc, crowdedHeard, rfl⟩, hcases⟩ := classify_cases octets stamp s
  have hheard : Placed slots air (heardState rxc crowdedHeard s) := h.of_agree rfl rfl
  rcases hcases with heq | heq | heq | ⟨-, -, heq⟩
  · exact heq ▸ hheard
  · exact heq ▸ hheard.of_same rfl rfl
  · exact heq ▸ hheard.of_same (by simp) (by simp)
  · exact heq ▸ placed_routeHomeBurst _ stamp (hheard.of_same (by simp) (by simp))

theorem placed_requestPresence (flag : PresenceFlag) (h : Placed slots air s) : Placed slots air (requestPresence flag s) :=
  placed_withdraw _ (h.of_same rfl rfl)

theorem placed_clearTeam (h : Placed slots air s) : Placed slots air (clearTeam s) := placed_withdraw _ (h.of_same (by simp) (by simp))

theorem placed_joined (team : Team) (h : Placed slots air s) : Placed slots air (joined team s) :=
  have hcleared : Placed slots air (clearTeam { s with tmu.leavePending := false }) := placed_clearTeam (h.of_same rfl rfl)
  placed_requestPresence .joining (hcleared.of_same rfl rfl)

theorem placed_presenceCompleted (flag : PresenceFlag) (h : Placed slots air s) : Placed slots air (presenceCompleted flag s) := by
  cases flag with
  | normal => exact h
  | joining => exact h.of_agree rfl rfl
  | leaving =>
    unfold presenceCompleted
    dsimp only
    split
    · exact (placed_clearTeam h).of_same rfl rfl
    · exact h

/-! ### The access sequence (R37, R38, R51) -/

theorem placed_gapCompleted (h : Placed slots s.cau.onAir s) (hk : Keyed false s) (hdue : gapDue s = true) :
    Placed slots (gapCompleted s).cau.onAir (gapCompleted s) := by
  simp only [gapDue, Bool.and_eq_true, decide_eq_true_eq] at hdue
  obtain ⟨-, hacc, -⟩ := hdue
  obtain ⟨-, hsilent⟩ := hk.staged_of_access (.inl hacc)
  unfold gapCompleted
  split
  · exact placed_goOnAir (hsilent ▸ h)
  · exact h.of_agree rfl rfl

theorem stagedSource_map {f : Staged → Staged} (hst : t.cau.staging = s.cau.staging.map f) (hf : ∀ st, (f st).source = st.source) :
    stagedSource t = stagedSource s := by
  rw [stagedSource, hst, Option.map_map]
  exact congrArg (fun g => Option.map g s.cau.staging) (funext hf)

theorem placed_slotCompleted (h : Placed slots s.cau.onAir s) (hk : Keyed false s) (hdue : slotDue s = true) :
    Placed slots (slotCompleted s).cau.onAir (slotCompleted s) := by
  simp only [slotDue, Bool.and_eq_true, decide_eq_true_eq] at hdue
  obtain ⟨-, hacc, -⟩ := hdue
  obtain ⟨-, hsilent⟩ := hk.staged_of_access (.inr hacc)
  have hcounted : Placed slots s.cau.onAir { s with
      cau.staging := s.cau.staging.map (fun st => { st with backoff := st.backoff - 1 })
      cau.slotCount := 0 } := h.of_agree rfl (stagedSource_map rfl fun _ => rfl)
  unfold slotCompleted
  dsimp only
  split
  · exact placed_goOnAir (hsilent ▸ hcounted)
  · exact hcounted

theorem placed_forceExpired (h : Placed slots s.cau.onAir s) (hk : Keyed false s) :
    Placed slots (forceExpired s).cau.onAir (forceExpired s) := by
  unfold forceExpired
  split
  · exact h.of_agree rfl (stagedSource_map rfl fun _ => rfl)
  · rename_i hacc
    have hsilent : s.cau.onAir = none := by
      have ha : AccessAgrees s.cau := hk.access
      unfold AccessAgrees at ha
      cases hs : s.cau.access with
      | onAir => exact absurd hs hacc
      | idle => simp only [hs] at ha; exact ha.2
      | gap => simp only [hs] at ha; exact ha.2
      | backoff => simp only [hs] at ha; exact ha.2
    exact placed_goOnAir (hsilent ▸ h)

theorem orderAt_of_empty {number : CallNumber} (h : t.odu = { Odu.reset with callNumber := number }) (i : Nat) : orderAt i t = none := by
  simp only [orderAt, h, Odu.reset, slotAt, List.getD_eq_getElem?_getD, List.getElem?_replicate]
  split <;> rfl

/-- All slots empty and nothing staged, as at reset and at entry. -/
theorem placed_of_empty {number : CallNumber} (hodu : t.odu = { Odu.reset with callNumber := number }) (hst : t.cau.staging = none) :
    Placed slots air t := by
  have hnothing {i : Nat} {o : Order} (ho : orderAt i t = some o) : False := by
    cases (orderAt_of_empty hodu i).symm.trans ho
  exact Unstaged.placed ⟨⟨fun i o ho => (hnothing ho).elim, fun i o ho => (hnothing ho).elim, fun i _ o ho => (hnothing ho).elim⟩,
    fun i o ho => (hnothing ho).elim⟩ fun i index => stagedSource_of_none hst _

theorem placed_tick (h : Placed slots air s) : Placed slots air (tick s) := by
  unfold tick
  dsimp only
  split
  · obtain ⟨⟨hsending, honAir, hheld⟩, hfits⟩ := h
    have hat {i : Nat} {a : Order} : orderAt i (tickTimers s) = some a ↔ ∃ p, orderAt i s = some p ∧ p.tick = a := by
      rw [orderAt_tickTimers, Option.map_eq_some_iff]
    have hticked : Placed slots air (tickTimers s) := by
      refine ⟨⟨fun i o ho => ?_, fun i o ho => ?_, fun i hi o ho => ?_⟩, fun i index => ?_⟩
      · obtain ⟨p, hp, rfl⟩ := hat.mp ho
        exact hsending i p hp
      · obtain ⟨p, hp, rfl⟩ := hat.mp ho
        exact honAir i p hp
      · obtain ⟨p, hp, rfl⟩ := hat.mp ho
        exact hheld i hi p hp
      · rw [stagedSource_map (s := s) (t := tickTimers s) rfl fun _ => rfl, hfits i index]
        constructor
        · rintro ⟨o, ho, hp, hn⟩
          exact ⟨o.tick, hat.mpr ⟨o, ho, rfl⟩, hp, hn⟩
        · rintro ⟨o, ho, hp, hn⟩
          obtain ⟨p, hat, rfl⟩ := hat.mp ho
          exact ⟨p, hat, hp, hn⟩
    exact hticked.of_same rfl rfl
  · exact h.of_same rfl rfl

end
end Sys2Proof.Machine
end

section
/-! PROOF. The end of a burst on air, and the places, the orders on air and the arbiter's look through every step (06 section 6.3, 03
section 3.4). -/

namespace Sys2Proof.Machine

section
variable {slots : Nat → Prop} {air : Option OnAir} {s t : State}

/-! ### The end of a burst on air (R40, R92) -/

theorem Placed.silent (h : Placed slots air s) (hnone : ∀ i o, orderAt i s = some o → o.place ≠ .onAir) : Placed slots none s := by
  obtain ⟨⟨hsending, -, hheld⟩, hfits⟩ := h
  exact ⟨⟨hsending, fun i o ho hp => absurd hp (hnone i o ho), hheld⟩, hfits⟩

theorem Placed.forget (h : Placed slots air s) : Placed (fun _ => False) air s := by
  obtain ⟨⟨hsending, honAir, -⟩, hfits⟩ := h
  exact ⟨⟨hsending, honAir, fun _ => False.elim⟩, hfits⟩

theorem placed_endAttempt {slot : Nat} {o : Order} (h : Placed (fun _ => False) air s) (ho : orderAt slot s = some o)
    (hplace : o.place = .none) : Placed (fun _ => False) air (endAttempt slot o s) := by
  unfold endAttempt
  split
  · exact placed_finishOrder slot _ h
  · split
    · exact placed_finishOrder slot _ h
    · split
      · exact placed_finishOrder slot _ h
      · refine placed_promote (placed_setSlot_nowhere h (fun q hq => ?_) ?_ fun _ _ => False.elim)
        · cases ho.symm.trans hq
          simp [hplace]
        · rintro _ ⟨rfl⟩
          exact hplace

/-- The report of the fragment that was on air leaves no order on air. -/
theorem placed_fragmentCompleted {slot index : Nat} {b : OnAir} (h : Placed slots (some b) s) (hb : b.source = .fragment slot index) :
    Placed (fun _ => False) none (fragmentCompleted slot index s) := by
  have honAir {i : Nat} {o : Order} (ho : orderAt i s = some o) (hp : o.place = .onAir) : i = slot ∧ o.next = index := by
    obtain ⟨q, hq, hsource⟩ := h.standing.onAir i o ho hp
    cases hq
    cases hb.symm.trans hsource
    exact ⟨rfl, rfl⟩
  unfold fragmentCompleted
  split
  · rename_i hempty
    refine (h.silent fun i o ho hp => ?_).forget
    obtain ⟨rfl, -⟩ := honAir ho hp
    cases hempty.symm.trans ho
  · rename_i o ho
    split
    · rename_i hcompleted
      obtain ⟨-, hair, -⟩ := hcompleted
      have hset : Placed (fun _ => False) none (setSlot slot (some { o with place := .none }) s) := by
        refine (Placed.silent (placed_setSlot_nowhere h.forget (fun q hq => ?_) ?_ fun _ _ => False.elim) fun i q hq hp => ?_)
        · cases ho.symm.trans hq
          simp [hair]
        · rintro _ ⟨rfl⟩
          rfl
        · rcases orderAt_setSlot_cases hq with ⟨-, hx⟩ | ⟨hne, hq⟩
          · cases hx
            cases hp
          · exact hne (honAir hq hp).1.symm
      have hat : orderAt slot (setSlot slot (some { o with place := .none }) s) = some { o with place := .none } :=
        orderAt_setSlot_same (orderAt_lt ho) _
      dsimp only
      split
      · exact placed_finishOrder slot _ hset
      · split
        · refine placed_setSlot_nowhere hset (fun q hq => ?_) ?_ fun _ _ => False.elim
          · cases hat.symm.trans hq
            nofun
          · rintro _ ⟨rfl⟩
            rfl
        · exact placed_endAttempt hset hat rfl
    · rename_i hnot
      refine (h.silent fun i q hq hp => ?_).forget
      obtain ⟨rfl, hn⟩ := honAir hq hp
      cases ho.symm.trans hq
      exact hnot ⟨h.standing.sending i o ho (by simp [hp]), hp, hn⟩

theorem placed_allstopCompleted (h : Placed slots s.cau.onAir s) {k : Bool} (hk : Keyed k s) :
    Placed slots (allstopCompleted s).cau.onAir (allstopCompleted s) := by
  unfold allstopCompleted
  split
  · exact h
  · split
    · exact h.of_same rfl rfl
    · exact placed_requestAllstop _ (h.of_same rfl rfl) (hk.of_cau rfl rfl)

/-- The report of a burst that is no fragment. -/
theorem placed_reportCompletion {source : Source} (hf : isFragment source = false) (h : Placed slots none s) (hk : Keyed true s) :
    Placed slots none (reportCompletion source s) := by
  have hsilent : Placed slots none { s with tmu.presenceCount := 0 } := h.of_same rfl rfl
  have hkeyed : Keyed true { s with tmu.presenceCount := 0 } := hk.of_cau rfl rfl
  cases source with
  | fragment slot index => cases hf
  | readback => exact hsilent
  | presence flag => exact placed_presenceCompleted flag hsilent
  | allstop team =>
    have hplaced := placed_allstopCompleted (slots := slots) (s := { s with tmu.presenceCount := 0 }) (hkeyed.access.2 ▸ hsilent) hkeyed
    have hended := (keyed_allstopCompleted hkeyed).access.2
    exact hended ▸ hplaced

theorem placed_leaveOnAir (h : Placed slots none s) (hk : Keyed true s) : Placed slots (leaveOnAir s).cau.onAir (leaveOnAir s) := by
  unfold leaveOnAir
  split
  · split
    · exact placed_goOnAir h
    · rw [hk.access.2]
      exact h.of_agree rfl rfl
  · rw [hk.access.2]
    exact h.of_agree rfl rfl

/-- What goes on air at once when ON_AIR is left is what stood staged (R51). -/
theorem leaveOnAir_onAir (s : State) : (leaveOnAir s).cau.onAir = s.cau.onAir ∨
    ∃ st, s.cau.staging = some st ∧ (leaveOnAir s).cau.onAir = some { burst := st.burst, source := st.source } := by
  unfold leaveOnAir
  split
  · rename_i st hst
    split
    · exact .inr ⟨st, hst, goOnAir_onAir hst⟩
    · exact .inl rfl
  · exact .inl rfl

theorem finishOrder_staging (slot : Nat) (outcome : OrderOutcome) (s : State) :
    (finishOrder slot outcome s).cau.staging = s.cau.staging ∨ (finishOrder slot outcome s).cau.staging = none := by
  cases ho : orderAt slot s with
  | none => exact .inl (by simp [finishOrder, ho])
  | some o =>
    obtain ⟨w, hw, heq⟩ := finishOrder_of_order ho outcome
    have hcau : (finishOrder slot outcome s).cau = w.cau := by rw [heq]; simp
    rw [hcau]
    rcases hw with rfl | ⟨rfl, -⟩
    · exact .inl rfl
    · exact withdraw_staging _ s

theorem fragmentCompleted_staging (slot index : Nat) (s : State) :
    (fragmentCompleted slot index s).cau.staging = s.cau.staging ∨ (fragmentCompleted slot index s).cau.staging = none := by
  unfold fragmentCompleted
  split
  · exact .inl rfl
  · split
    · dsimp only
      split
      · exact finishOrder_staging slot _ (setSlot slot _ s)
      · split
        · exact .inl rfl
        · unfold endAttempt
          split
          · exact finishOrder_staging slot _ (setSlot slot _ s)
          · split
            · exact finishOrder_staging slot _ (setSlot slot _ s)
            · split
              · exact finishOrder_staging slot _ (setSlot slot _ s)
              · exact .inl (by simp)
    · exact .inl rfl

/-! ### From an event's beginning to its end -/

/-- The order in the slot is on air. -/
def OnAirAt (s : State) (i : Nat) : Prop := ∃ o, orderAt i s = some o ∧ o.place = .onAir

/-- The places agree at the end, and what was on air at the beginning stays so unless the on-air register has changed. -/
def Follows (s t : State) : Prop :=
  ∃ slots, Placed slots t.cau.onAir t ∧ ∀ i, OnAirAt s i → slots i ∨ t.cau.onAir ≠ s.cau.onAir

theorem follows_of_placed (h : Placed (OnAirAt s) t.cau.onAir t) : Follows s t := ⟨_, h, fun _ hi => .inl hi⟩

theorem placed_onAirAt (h : PlacesAgree s) : Placed (OnAirAt s) s.cau.onAir s := by
  obtain ⟨⟨hsending, honAir, -⟩, hfits⟩ := placesAgree_iff.mp h
  refine ⟨⟨hsending, honAir, ?_⟩, hfits⟩
  rintro i ⟨o, ho, hp⟩ q hq
  cases ho.symm.trans hq
  exact .inl hp

/-- Of a fragment on air: its order is the one SENDING, so nothing of an order stands staged behind it. -/
theorem stagedSource_of_onAirAt {i : Nat} (h : Placed slots air s) (ho : OrdersFit s) (hi : OnAirAt s i) (j index : Nat) :
    stagedSource s ≠ some (.fragment j index) := by
  intro hstaged
  obtain ⟨o, hat, hp⟩ := hi
  obtain ⟨q, hq, hqp, -⟩ := (h.fits j index).mp hstaged
  have hij := ho.sending i j o q hat hq (h.standing.sending i o hat (by simp [hp])) (h.standing.sending j q hq (by simp [hqp]))
  subst hij
  cases hat.symm.trans hq
  cases hp.symm.trans hqp

theorem follows_onAirCompleted (h : PlacesAgree s) (hk : Keyed false s) (ho : Ordered s) (hdue : onAirDue s = true) :
    Follows s (onAirCompleted s) := by
  simp only [onAirDue, Bool.and_eq_true, decide_eq_true_eq] at hdue
  obtain ⟨-, hacc, -⟩ := hdue
  have hplaced := placed_onAirAt h
  unfold onAirCompleted
  split
  · rename_i b hb
    have hended : Keyed true { s with cau.onAir := none } := by
      obtain ⟨-, hstaged, -, ⟨hgate, -⟩, hgen, hcounts⟩ := hk
      exact ⟨⟨hacc, rfl⟩, hstaged, nofun, ⟨hgate, nofun⟩, hgen, hcounts⟩
    have hreported : Keyed true (reportCompletion b.source { s with cau.onAir := none }) := keyed_reportCompletion _ hended
    have hcleared : Placed (OnAirAt s) (some b) { s with cau.onAir := none } := (hb ▸ hplaced).of_agree rfl rfl
    by_cases hf : isFragment b.source = true
    · obtain ⟨slot, index, hfragment⟩ : ∃ slot index, b.source = .fragment slot index := by
        cases hs : b.source with
        | fragment slot index => exact ⟨slot, index, rfl⟩
        | allstop team => simp [hs, isFragment] at hf
        | readback => simp [hs, isFragment] at hf
        | presence flag => simp [hs, isFragment] at hf
      rw [hfragment] at hreported ⊢
      have hreport : Placed (fun _ => False) none (reportCompletion (.fragment slot index) { s with cau.onAir := none }) :=
        placed_fragmentCompleted (s := { s with cau.onAir := none, tmu.presenceCount := 0 }) (hcleared.of_same rfl rfl) hfragment
      refine ⟨_, placed_leaveOnAir hreport hreported, fun i hi => .inr fun hsame => ?_⟩
      rcases leaveOnAir_onAir (reportCompletion (.fragment slot index) { s with cau.onAir := none }) with heq | ⟨st, hst, heq⟩
      · rw [heq, hreported.access.2, hb] at hsame
        cases hsame
      · rw [heq, hb] at hsame
        have hsource : st.source = .fragment slot index := by
          rw [← hfragment, ← Option.some.inj hsame]
        have hbefore : s.cau.staging = some st := by
          rcases fragmentCompleted_staging slot index { s with cau.onAir := none, tmu.presenceCount := 0 } with hs | hs
          · exact hs.symm.trans hst
          · cases hs.symm.trans hst
        exact stagedSource_of_onAirAt hplaced ho.1 hi slot index (stagedSource_eq_some.mpr ⟨st, hbefore, hsource⟩)
    · have hf' : isFragment b.source = false := by simpa using hf
      have hsilent : Placed (OnAirAt s) none { s with cau.onAir := none } := hcleared.silent fun i o hat hp => by
        obtain ⟨q, hq, hsource⟩ := hcleared.standing.onAir i o hat hp
        cases hq
        simp [hsource, isFragment] at hf'
      exact follows_of_placed (placed_leaveOnAir (placed_reportCompletion hf' hsilent hended) hreported)
  · exact follows_of_placed hplaced

/-! ### Every effect -/

theorem sampled_registers (c : Config) (level : Level) (insideBurst : Bool) (cau : Cau) :
    (sampled c level insideBurst cau).staging = cau.staging ∧ (sampled c level insideBurst cau).onAir = cau.onAir ∧
      (sampled c level insideBurst cau).allstopRequest = cau.allstopRequest ∧
      (sampled c level insideBurst cau).gateOpen = cau.gateOpen := by
  by_cases ha : cau.access = .onAir
  · simp [sampled_onAir _ _ _ ha]
  · simp [sampled_not_onAir rfl ha]

theorem placed_of_agree_onAir (h : PlacesAgree s) (hool : t.odu.ool = s.odu.ool) (hcau : t.cau = s.cau) :
    Placed (OnAirAt s) t.cau.onAir t := hcau ▸ (placed_onAirAt h).of_same hool hcau

theorem follows_quiet {effect : State} (hq : Quiet s effect) (h : PlacesAgree s) (ho : Ordered s) : Follows s effect := by
  refine follows_of_placed ?_
  have hplaced := placed_onAirAt h
  cases hq with
  | reset => exact placed_of_empty (number := 0) rfl rfl
  | load hr => exact hplaced.of_same rfl rfl
  | noMemory hr => exact hplaced.of_same rfl rfl
  | sample level hr hw =>
    obtain ⟨hstaging, honAir, -⟩ := sampled_registers s.config level s.rxc.reception.isSome s.cau
    refine honAir.symm ▸ hplaced.of_agree rfl ?_
    simp only [stagedSource, hstaging]
  | aging hr =>
    have hframe := ageContexts_frame { s with asu.agingMs := s.asu.agingMs - 100 }
    exact placed_of_agree_onAir h (by simp [hframe]) (by simp [hframe])
  | takeResult r rest hr hrsq =>
    have honAir : (moveHeldResult { s with odu.rsq := rest }).cau.onAir = s.cau.onAir := by simp
    rw [honAir]
    exact placed_takeResult hplaced ho.1.waiting
  | nothing => exact hplaced
  | _ => exact placed_of_agree_onAir h (by simp) (by simp)

theorem placed_octetRead (x : Byte) (h : Placed slots s.cau.onAir s) : Placed slots (octetRead x s).cau.onAir (octetRead x s) := by
  unfold octetRead checkBlock
  dsimp only
  split
  · split
    · exact h.of_same rfl rfl
    · split
      · exact h.of_same rfl rfl
      · exact placed_of_empty rfl rfl
  · exact h.of_same rfl rfl

theorem follows_stirring {effect : State} (hs : Stirring s effect) (h : PlacesAgree s) (hk : Keyed false s) (ho : Ordered s) :
    Follows s effect := by
  have hplaced := placed_onAirAt h
  have hsame (heffect : Placed (OnAirAt s) s.cau.onAir effect) (honAir : effect.cau.onAir = s.cau.onAir) : Follows s effect :=
    follows_of_placed (honAir ▸ heffect)
  cases hs with
  | octet x => exact follows_of_placed (placed_octetRead x hplaced)
  | burst octets stamp => exact hsame (placed_classify octets stamp hplaced) (by simp)
  | pace => exact hsame (hplaced.of_agree rfl rfl) rfl
  | gap hdue => exact follows_of_placed (placed_gapCompleted hplaced hk hdue)
  | slot hdue => exact follows_of_placed (placed_slotCompleted hplaced hk hdue)
  | completion hdue => exact follows_onAirCompleted h hk ho hdue
  | force hdue => exact follows_of_placed (placed_forceExpired hplaced hk)
  | wait slot hdue => exact hsame (placed_waitExpired slot hplaced hdue) (by simp)
  | presence => exact hsame (hplaced.of_same (by simp) (by simp)) (by simp)
  | series pressed team =>
    exact follows_of_placed (placed_startSeries team (s := { s with stu.keyInput := pressed }) (hplaced.of_same rfl rfl) (hk.of_cau rfl rfl))
  | submit slot sub hr hslot =>
    refine hsame (placed_acceptOrder sub hplaced hslot ?_) (by simp)
    rintro ⟨o, hat, -⟩
    cases (firstEmpty_some hslot).2.1.symm.trans hat
  | cancel slot o hr hat hlive =>
    refine hsame (placed_cancelOrder hplaced hat) ?_
    simp
  | join team => exact hsame (placed_joined team hplaced) (by simp [joined])
  | leave => exact hsame (placed_requestPresence _ (hplaced.of_same rfl rfl)) (by simp)
  | restart hr => exact follows_of_placed (placed_of_empty (restartRunning_odu s) (by rw [restartRunning_cau]; rfl))

/-! ### Every step -/

theorem Follows.of_same {e : State} (h : Follows s e) (hool : t.odu.ool = e.odu.ool) (hcau : t.cau = e.cau) : Follows s t := by
  obtain ⟨slots, hplaced, hslots⟩ := h
  exact ⟨slots, hcau ▸ hplaced.of_same hool hcau, hcau ▸ hslots⟩

theorem Follows.arbitrate {e : State} (h : Follows s e) : Follows s (Machine.arbitrate e) := by
  obtain ⟨slots, hplaced, hslots⟩ := h
  have honAir : (Machine.arbitrate e).cau.onAir = e.cau.onAir := by simp
  exact ⟨slots, honAir ▸ placed_arbitrate hplaced, honAir ▸ hslots⟩

theorem follows_exec (c : Instr) (h : PlacesAgree s) (hk : Keyed false s) (ho : Ordered s) (hnext : exec c s = .next t) :
    Follows s t := by
  obtain ⟨u, port, hafter, rfl⟩ := exec_after c hnext
  refine Follows.of_same (e := u) ?_ rfl rfl
  cases hafter with
  | same => exact follows_of_placed (placed_onAirAt h)
  | quiet hq => exact (follows_quiet hq h ho).of_same rfl rfl
  | stirred hs => exact (follows_stirring hs h hk ho).arbitrate.of_same rfl rfl

theorem tick_onAir (s : State) : (tick s).cau.onAir = s.cau.onAir := by
  unfold tick
  dsimp only
  split <;> rfl

theorem follows_step (h : PlacesAgree s) (hk : Keyed false s) (ho : Ordered s) (hstep : step s = .next t) : Follows s t := by
  unfold step at hstep
  split at hstep
  · cases hstep
    exact follows_of_placed (tick_onAir s ▸ placed_tick (placed_onAirAt h))
  · rename_i c rest _
    exact follows_exec (s := { s with pending := rest }) c h (keyed_looksInside.queue s rest hk) (ordered_looksInside.queue s rest ho) hstep

/-! ### The arbiter's look (R45) -/

theorem sendingOrder_of_sending {i : Nat} {o : Order} (h : OrdersFit s) (ho : orderAt i s = some o) (hs : o.state = .sending) :
    sendingOrder s = some (i, o) := by
  cases hsend : sendingOrder s with
  | none => exact absurd hs (sendingOrder_none hsend ho)
  | some found =>
    obtain ⟨j, q⟩ := found
    obtain ⟨hq, hqs⟩ := sendingOrder_some hsend
    obtain rfl := h.sending i j o q ho hq hs hqs
    rw [ho.symm.trans hq |> Option.some.inj]

theorem readyClass_eq_none_iff (h : OrdersFit s) :
    readyClass s = none ↔ s.cau.allstopRequest = none ∧ s.odu.rbq = [] ∧ s.tmu.presenceRequest = none ∧
      ∀ i o, orderAt i s = some o → o.state = .sending → o.place = .none → 256 ≤ s.cau.credit → s.cau.gateOpen = false := by
  have hfragment : readyFragment s = none ↔
      ∀ i o, orderAt i s = some o → o.state = .sending → o.place = .none → 256 ≤ s.cau.credit → s.cau.gateOpen = false := by
    constructor
    · intro hnone i o ho hs hp hc
      by_contra hgate
      simp [readyFragment, sendingOrder_of_sending h ho hs, hp, hc, hgate] at hnone
    · intro hall
      by_contra hsome
      obtain ⟨⟨slot, index⟩, hready⟩ := Option.ne_none_iff_exists'.mp hsome
      obtain ⟨o, ho, hs, hp, -, hc, hgate⟩ := readyFragment_some hready
      exact absurd (hgate.symm.trans (hall slot o ho hs hp hc)) nofun
  rw [← hfragment]
  unfold readyClass
  cases s.cau.allstopRequest with
  | some team => simp
  | none =>
    cases s.odu.rbq with
    | cons e rest => simp
    | nil =>
      cases s.tmu.presenceRequest with
      | some flag => simp
      | none => simp

/-- What ArbiterKept looks at, but for the order slots. -/
def arbiterView (s : State) : PartState × Bool × Option Team × List ReadbackEntry × Option PresenceFlag × Nat × Bool :=
  (s.cfl.part, s.cau.staging.isNone, s.cau.allstopRequest, s.odu.rbq, s.tmu.presenceRequest, s.cau.credit, s.cau.gateOpen)

theorem ArbiterKept.of_orders (h : ArbiterKept s) (hs : OrdersFit s) (ht : OrdersFit t) (hview : arbiterView t = arbiterView s)
    (horders : ∀ i o, orderAt i t = some o → ∃ p, orderAt i s = some p ∧ p.state = o.state ∧ p.place = o.place) : ArbiterKept t := by
  simp only [arbiterView, Prod.mk.injEq] at hview
  obtain ⟨hpart, hstaging, hrequest, hrbq, hpresence, hcredit, hgate⟩ := hview
  intro hrun hempty
  have hnone : s.cau.staging = none := Option.isNone_iff_eq_none.mp (hstaging ▸ by simp [hempty])
  obtain ⟨h1, h2, h3, h4⟩ := (readyClass_eq_none_iff hs).mp (h (hpart ▸ hrun) hnone)
  refine (readyClass_eq_none_iff ht).mpr ⟨hrequest ▸ h1, hrbq ▸ h2, hpresence ▸ h3, fun i o ho hsend hp hc => ?_⟩
  obtain ⟨p, hat, hstate, hplace⟩ := horders i o ho
  exact hgate ▸ h4 i p hat (hstate.trans hsend) (hplace.trans hp) (hcredit ▸ hc)

theorem ArbiterKept.of_agree (h : ArbiterKept s) (hs : Ordered s) (hodu : t.odu = s.odu) (hview : arbiterView t = arbiterView s) :
    ArbiterKept t :=
  h.of_orders hs.1 (hs.of_odu hodu).1 hview fun i o ho => ⟨o, (orderAt_of_ool (by rw [hodu]) i).symm.trans ho, rfl, rfl⟩

theorem arbiterKept_of_not_running (h : s.cfl.part ≠ .running) : ArbiterKept s := fun hrun => absurd hrun h

/-- After its look, nothing is ready that the empty register could take. -/
theorem arbiterKept_arbitrate (s : State) : ArbiterKept (arbitrate s) := by
  intro hrun hempty
  have hr : running s = true := by simpa [running] using hrun
  cases hst : s.cau.staging with
  | some st => simp [arbitrate, hst] at hempty
  | none =>
    cases hready : readyClass s with
    | none => simp [arbitrate, hr, hst, hready]
    | some source =>
      obtain ⟨force, hstaging, -⟩ := stage_staging source (noteChosen source s)
      simp [arbitrate, hr, hst, hready, hstaging] at hempty

theorem arbiterKept_quiet {effect : State} (hq : Quiet s effect) (h : ArbiterKept s) (ho : Ordered s) : ArbiterKept effect := by
  cases hq with
  | reset => exact arbiterKept_of_not_running nofun
  | load hr => exact arbiterKept_of_not_running nofun
  | noMemory hr => exact arbiterKept_of_not_running nofun
  | sample level hr hw =>
    obtain ⟨hstaging, -, hrequest, hgate⟩ := sampled_registers s.config level s.rxc.reception.isSome s.cau
    obtain ⟨-, -, -, -, hcredit⟩ := sampled_counts s.config level s.rxc.reception.isSome s.cau
    exact h.of_agree ho rfl (by simp only [arbiterView, hstaging, hrequest, hgate, hcredit])
  | aging hr =>
    have hframe := ageContexts_frame { s with asu.agingMs := s.asu.agingMs - 100 }
    exact h.of_agree ho (by simp [hframe]) (by simp [arbiterView, hframe])
  | takeResult r rest hr hrsq =>
    refine h.of_orders ho.1 (ordered_takeResult ho hrsq).1 (by simp [arbiterView]) fun i o hat => ?_
    rcases moveHeldResult_cases { s with odu.rsq := rest } with ⟨-, heq⟩ | ⟨slot, waiting, -, ⟨-, heq⟩ | ⟨q, -, heq⟩⟩
    · exact ⟨o, by rw [heq] at hat; exact hat, rfl, rfl⟩
    · exact ⟨o, by rw [heq] at hat; exact hat, rfl, rfl⟩
    · rw [heq] at hat
      exact ⟨o, (orderAt_of_setSlot_none hat).2, rfl, rfl⟩
  | nothing => exact h
  | _ => exact h.of_agree ho (by simp) (by simp [arbiterView])

theorem arbiterKept_tick (h : ArbiterKept s) (ho : Ordered s) : ArbiterKept (tick s) := by
  refine h.of_orders ho.1 (ordered_tick ho).1 ?_ fun i o hat => ?_
  · unfold tick
    dsimp only
    split
    · simp [arbiterView, tickTimers]
    · rfl
  · obtain ⟨p, hp, rfl | rfl⟩ := orderAt_tick_some hat
    · exact ⟨_, hp, rfl, rfl⟩
    · exact ⟨_, hp, rfl, rfl⟩

theorem arbiterView_drivePins (s : State) : arbiterView (drivePins s) = arbiterView s := rfl

theorem arbiter_looksInside : LooksInside fun s => Ordered s ∧ ArbiterKept s :=
  ⟨fun _ h => ⟨h.1.of_odu rfl, h.2.of_agree h.1 rfl rfl⟩, fun _ _ h => ⟨h.1.of_odu rfl, h.2.of_agree h.1 rfl rfl⟩,
    fun _ _ h => ⟨h.1.of_odu rfl, h.2.of_agree h.1 rfl rfl⟩⟩

end

/-- Settles O54: the orders' soundness slot by slot, the places followed from an event's beginning to its end, and the arbiter's look at
the end of every event that may stir it. -/
theorem ordersStaySoundAndTheArbiterNeverSleeps : Obligations.OrdersStaySoundAndTheArbiterNeverSleeps := by
  refine ⟨fun s t => ordersSound_step, fun s t ho hk hp hstep => ?_, fun s t ho h hstep => ?_⟩
  · obtain ⟨slots, hplaced, hslots⟩ := follows_step hp (keyed_iff.mp hk) (ordersSound_iff.mp ho) hstep
    refine ⟨placesAgree_iff.mpr hplaced.forget, fun i o after hat hair hafter hsending hsame => ?_⟩
    rcases hslots i ⟨o, hat, hair⟩ with hi | hchanged
    · rcases hplaced.standing.held i hi after hafter with hplace | hf
      · exact hplace
      · cases hsending.symm.trans hf
    · exact absurd hsame hchanged
  · exact (step_keeps_of_effects arbiter_looksInside (fun _ h => ⟨ordered_tick h.1, arbiterKept_tick h.2 h.1⟩)
      (fun _ _ hq h => ⟨ordered_quiet hq h.1, arbiterKept_quiet hq h.2 h.1⟩)
      (fun _ _ hs h => ⟨ordered_arbitrate (ordered_stirring hs h.1), arbiterKept_arbitrate _⟩) ⟨ordersSound_iff.mp ho, h⟩ hstep).2

end Sys2Proof.Machine
end

section
/-! PROOF. Steps, reset, loads and the entry to RUNNING (00 Conventions, 10 sections 10.2 to 10.4), and a reception's start and early end
(01 section 1.6). -/

namespace Sys2Proof.Machine

/-- Settles O1. -/
theorem stepsRunCommandsOrPassAMillisecond : Obligations.StepsRunCommandsOrPassAMillisecond := by
  refine ⟨fun _ _ _ => rfl, fun s hs => ?_⟩
  have htick : step s = .next (tick s) := by simp [step, hs]
  rw [htick, tick]
  by_cases hr : s.cfl.part = .running
  · simp only [running, hr, decide_true, if_true]
    rfl
  · simp [running, hr]

/-- Settles O2. -/
theorem resetStateHoldsTheSpecValues : Obligations.ResetStateHoldsTheSpecValues := by
  simp [Obligations.ResetStateHoldsTheSpecValues, State.reset, Cfl.reset, Rxc.reset, Cau.reset, Asu.reset, Bpl.reset, Odu.reset,
    Tmu.reset, Stu.reset, Tpt.reset]

/-! ### Resets and loads (R158, R159, R162, R166) -/

theorem drivePins_resetTaken (s : State) : drivePins (resetTaken s) = resetTaken s := rfl

/-- Settles O3. -/
theorem resetsAndLoadsBegin : Obligations.ResetsAndLoadsBegin := by
  refine ⟨fun cause s => ?_, fun f s => ⟨fun hpart hheld => ?_, fun hpart hheld => ?_, fun hf hpart => ?_⟩⟩
  · change execReset cause s = _
    unfold execReset
    split
    · rfl
    · rw [taken, drivePins_resetTaken]
      rfl
  · exact if_pos ⟨hpart, hheld⟩
  · have hloading : loading s = true := by simp [loading, hpart, hheld]
    exact if_pos hloading
  · have hown : restart s = accept [] (beginLoad s) := by simp [restart, running, hpart]
    exact answerFrame_accepted hf hown

/-! ### The checks of a block (R160, R161) -/

theorem firstFailed_cons {b : Bool} {x : Byte} {rest : List (Bool × Byte)} {p : Prop} [Decidable p] {y : Option Byte} (h : b = false ↔ p)
    (hrest : (rest.find? (fun c => !c.1)).map (fun c => c.2) = y) :
    (((b, x) :: rest).find? (fun c => !c.1)).map (fun c => c.2) = if p then some x else y := by
  cases b with
  | true => simpa [← h] using hrest
  | false => simp [← h]

theorem roleOfByte_eq (b : Byte) : roleOfByte b = if b = 1 then some .portable else if b = 2 then some .locomotive else none := by
  revert b
  decide

theorem attemptLimit_eq (codes : Byte) : (codes.extractLsb' 3 4).toNat = codes.toNat / 8 % 16 := by
  simp [BitVec.extractLsb'_toNat, Nat.shiftRight_eq_div_pow]

theorem firstBadField_eq (block : List Byte) :
    firstBadField block =
       if ¬ (octetAt block 0 = 1 ∨ octetAt block 0 = 2) then some 0
       else if wordAt block 1 = 0 ∨ wordAt block 1 = 65535 then some 1
       else if ¬ (1 ≤ (octetAt block 3).toNat ∧ (octetAt block 3).toNat ≤ 250) then some 3
       else if (octetAt block 4).toNat < 1 then some 4
       else if (octetAt block 5).toNat < (octetAt block 4).toNat ∨ 250 < (octetAt block 5).toNat then some 5
       else if (wordAt block 6).toNat < 1 ∨ 1023 < (wordAt block 6).toNat then some 6
       else if 63 < (octetAt block 8).toNat then some 8
       else if (wordAt block 9).toNat < 1 ∨ 800 < (wordAt block 9).toNat then some 9
       else if (octetAt block 11).toNat < 1 ∨ 7 < (octetAt block 11).toNat then some 11
       else if (wordAt block 13).toNat < 16 then some 13
       else if (wordAt block 15).toNat < (wordAt block 13).toNat then some 15
       else if (wordAt block 17).toNat < (wordAt block 15).toNat ∨ 1024 < (wordAt block 17).toNat then some 17
       else if (octetAt block 20).toNat / 8 % 16 < 1 ∨ 8 < (octetAt block 20).toNat / 8 % 16 then some 20
       else none := by
  have hrange (low n high : Nat) : (decide (low ≤ n ∧ n ≤ high) = false) ↔ n < low ∨ high < n := by
    rw [decide_eq_false_iff_not]
    omega
  have hleast (low n : Nat) : (decide (low ≤ n) = false) ↔ n < low := by
    rw [decide_eq_false_iff_not, Nat.not_le]
  refine firstFailed_cons ?_ <| firstFailed_cons ?_ <| firstFailed_cons decide_eq_false_iff_not <| firstFailed_cons (hleast _ _) <|
    firstFailed_cons (hrange _ _ _) <| firstFailed_cons (hrange _ _ _) <| firstFailed_cons (hleast _ _) <|
    firstFailed_cons (hrange _ _ _) <| firstFailed_cons (hrange _ _ _) <| firstFailed_cons (hleast _ _) <|
    firstFailed_cons (hleast _ _) <| firstFailed_cons (hrange _ _ _) <| firstFailed_cons ?_ rfl
  · rw [roleOfByte_eq]
    split
    · simp_all
    · split <;> simp_all
  · simp [readConfig, isStation, or_iff_not_imp_left]
  · simp only [readConfig, attemptLimit_eq]
    exact hrange _ _ _

/-- The coded fields by their places in the two octets (R170). -/
theorem readConfig_eq (block : List Byte) {timing codes : Nat} (htiming : timing = (octetAt block 19).toNat)
    (hcodes : codes = (octetAt block 20).toNat) (hrole : octetAt block 0 = 1 ∨ octetAt block 0 = 2) :
    readConfig block = {
      role := if octetAt block 0 = 2 then .locomotive else .portable, station := wordAt block 1, homeTeam := octetAt block 3,
      rangeLow := octetAt block 4, rangeHigh := octetAt block 5, busyThreshold := (wordAt block 6).toNat,
      hysteresis := (octetAt block 8).toNat, crowdThreshold := (wordAt block 9).toNat,
      decreaseFactor := (octetAt block 11).toNat, increase := (octetAt block 12).toNat, rMin := (wordAt block 13).toNat,
      rInit := (wordAt block 15).toNat, rMax := (wordAt block 17).toNat, wBaseCode := BitVec.ofNat 2 (timing % 4),
      readbackBaseCode := BitVec.ofNat 2 (timing / 4 % 4), agingCode := BitVec.ofNat 2 (timing / 16 % 4),
      ganged := decide (timing / 64 % 2 = 1), tight := decide (timing / 128 = 1), supervisionCode := BitVec.ofNat 3 (codes % 8),
      attemptLimit := codes / 8 % 16 } := by
  subst htiming hcodes
  have hcode (low width : Nat) (x : Byte) : x.extractLsb' low width = BitVec.ofNat width (x.toNat / 2 ^ low % 2 ^ width) := by
    apply BitVec.eq_of_toNat_eq
    simp [BitVec.extractLsb'_toNat, Nat.shiftRight_eq_div_pow]
  have hmark (i : Nat) (x : Byte) : x.getLsbD i = decide (x.toNat / 2 ^ i % 2 = 1) := by
    rw [BitVec.getLsbD, Nat.testBit_eq_decide_div_mod_eq]
  have hlast (x : Byte) : x.toNat / 2 ^ 7 % 2 = x.toNat / 128 := by
    have := x.isLt
    omega
  have hrole' : (roleOfByte (octetAt block 0)).getD .portable = if octetAt block 0 = 2 then .locomotive else .portable := by
    rw [roleOfByte_eq]
    rcases hrole with h | h <;> simp [h]
  simp only [readConfig, hrole', hcode, hmark, hlast]
  norm_num

theorem role_of_firstBadField_none {block : List Byte} (h : firstBadField block = none) :
    octetAt block 0 = 1 ∨ octetAt block 0 = 2 := by
  by_contra hrole
  rw [firstBadField_eq, if_pos hrole] at h
  cases h

theorem enterRunning_eq (c : Config) (s : State) : enterRunning c s =
    { s with
      cfl := { part := .running, resetHeld := false, fault := .none, holding := [], inForce := some c }
      cau := { sense := .clear, occupancy := 0, average := 0, crowded := false, crowdedHeard := false, rate := c.rInit, credit := 256,
               paceSamples := 0, staging := none, onAir := none, onAirSamples := 0, access := .idle, gapCount := 0, slotCount := 0,
               gateOpen := false, allstopRequest := none, generator := some (s.cau.generator.getD (generatorSeed c.station)) }
      asu := { contexts := List.replicate 24 none, rcq := [], exq := [], agingMs := 0 }
      bpl.free := List.finRange 128
      bpl.held := []
      odu := { ool := List.replicate 8 none, rsq := [], rbq := [], callNumber := s.odu.callNumber, nextSequence := 0, finishedSlots := [] }
      tmu := { attached := true, leavePending := false, homeTeam := c.homeTeam, peers := [], control := .unheld,
               presenceRequest := some .joining, presenceCount := 0, silenceMs := 0, presenceMs := 0 }
      stu := { causes := if c.role = .locomotive then { noHolder := true, cab := s.stu.cabInput } else {}, lastAllstop := none,
               hold := false, repeatCount := 0, seriesTeam := none, cabInput := s.stu.cabInput, keyInput := s.stu.keyInput }
      tpt.flags := {}
      tpt.range := some (c.rangeLow, c.rangeHigh) } := by
  have hcauses : causesFormed c.role s.stu.cabInput = if c.role = .locomotive then { noHolder := true, cab := s.stu.cabInput } else {} := by
    cases c.role <;> rfl
  unfold enterRunning
  rw [hcauses]
  rfl

/-- Settles O4. -/
theorem configurationIsCheckedAndLoaded : Obligations.ConfigurationIsCheckedAndLoaded := by
  refine ⟨firstBadField_eq, fun x s hpart hheld => ?_⟩
  have hloading : loading s = true := by simp [loading, hpart, hheld]
  have hexec : exec (.configOctetRead x) s = .next (drivePins (arbitrate (octetRead x s))) := if_pos hloading
  have hshort (h : (octetRead x s).cfl.part ≠ .running) : exec (.configOctetRead x) s = .next (drivePins (octetRead x s)) := by
    rw [hexec, arbitrate_of_not_running h]
  refine ⟨fun hlength => ?_, ?_⟩
  · have hread : octetRead x s = { s with cfl.holding := s.cfl.holding ++ [x] } := by
      have hnot : (s.cfl.holding ++ [x]).length ≠ 24 := by
        rw [List.length_append, List.length_singleton]
        omega
      exact if_neg hnot
    rw [hshort (by simp [hread, hpart]), hread]
  · rintro hlength block rfl
    have hread : octetRead x s = checkBlock (s.cfl.holding ++ [x]) s := if_pos (by simp [hlength])
    have hending {fault : FaultCode} (h : checkBlock (s.cfl.holding ++ [x]) s = endLoadFault fault s) :
        exec (.configOctetRead x) s = .next (drivePins (endLoadFault fault s)) := by
      rw [hshort (by rw [hread, h]; nofun), hread, h]
    refine ⟨fun hbad => hending ?_, fun hgood => ⟨fun offset hfield => hending ?_, ?_⟩⟩
    · simp [checkBlock, blockDigestGood, hbad]
    · simp [checkBlock, blockDigestGood, hgood, hfield]
    · rintro hpassed c timing codes htiming hcodes rfl
      rw [← readConfig_eq _ htiming hcodes (role_of_firstBadField_none hpassed)]
      refine ⟨configSound_of_firstBadField_none hpassed, ?_⟩
      have hentered : octetRead x s = enterRunning (readConfig (s.cfl.holding ++ [x])) s := by
        rw [hread]
        simp [checkBlock, blockDigestGood, hgood, hpassed]
      rw [hexec, hentered, enterRunning_eq]
      rfl

/-! ### Receptions (R9, R15) -/

/-- Settles O5. -/
theorem syncStartsAndShortBurstEndsAReception : Obligations.SyncStartsAndShortBurstEndsAReception := by
  intro s hpart
  have hr : running s = true := by simp [running, hpart]
  simp only [← countUp_eq_ofNat_min]
  refine ⟨fun hacc => ?_, fun hreception => if_pos ⟨hr, hreception⟩⟩
  have hexec : exec .burstSync s = .next (drivePins (syncTaken s)) := if_pos ⟨hr, hacc⟩
  rw [hexec, syncTaken]
  split
  · rfl
  · rfl

end Sys2Proof.Machine
end

section
/-! PROOF. The peer table (07 section 7.2): refreshing, entering, evicting and removing the sender's entry, and what a PRESENCE reports. -/

namespace Sys2Proof.Machine

/-! ### One station's entry (R111) -/

theorem map_update_absent {station : Station} {peers : List Peer} (h : ∀ p ∈ peers, p.station ≠ station) (f : Peer → Peer) :
    peers.map (fun p => if p.station = station then f p else p) = peers :=
  (List.map_congr_left fun p hp => if_neg (h p hp)).trans (List.map_id' _)

theorem updatePeer_absent {station : Station} {s : State} (h : ∀ p ∈ s.tmu.peers, p.station ≠ station) (f : Peer → Peer) :
    updatePeer station f s = s := by
  rw [updatePeer, map_update_absent h]

theorem updatePeer_updatePeer {station : Station} {f : Peer → Peer} (hf : ∀ p, (f p).station = p.station) (g : Peer → Peer) (s : State) :
    updatePeer station g (updatePeer station f s) = updatePeer station (fun p => g (f p)) s := by
  have hpeer (p : Peer) : (if (if p.station = station then f p else p).station = station then
      g (if p.station = station then f p else p) else if p.station = station then f p else p) =
        if p.station = station then g (f p) else p := by
    by_cases hp : p.station = station
    · simp [hp, hf]
    · simp [hp]
  simp [updatePeer, List.map_map, Function.comp_def, hpeer]

theorem removePeer_updatePeer {station : Station} {f : Peer → Peer} (hf : ∀ p, (f p).station = p.station) (s : State) :
    removePeer station (updatePeer station f s) = removePeer station s := by
  have hpeers : (s.tmu.peers.map (fun p => if p.station = station then f p else p)).filter (fun p => decide (p.station ≠ station)) =
      s.tmu.peers.filter (fun p => decide (p.station ≠ station)) := by
    induction s.tmu.peers with
    | nil => rfl
    | cons p rest ih =>
      by_cases hp : p.station = station
      · simpa [hp, hf] using ih
      · simpa [hp] using ih
  simp only [removePeer, updatePeer, hpeers]

theorem map_insertPeer {f : Peer → Peer} (hf : ∀ p, (f p).station = p.station) (new : Peer) (peers : List Peer) :
    (insertPeer new peers).map f = insertPeer (f new) (peers.map f) := by
  induction peers with
  | nil => rfl
  | cons p rest ih =>
    simp only [insertPeer, List.map_cons, hf]
    split
    · rfl
    · rw [List.map_cons, ih]

/-- An update of the entry just made changes that entry alone. -/
theorem updatePeer_addPeer {new : Peer} {s : State} (h : ∀ p ∈ s.tmu.peers, p.station ≠ new.station) {f : Peer → Peer}
    (hf : ∀ p, (f p).station = p.station) : updatePeer new.station f (addPeer new s) = addPeer (f new) s := by
  have hstation (p : Peer) : (if p.station = new.station then f p else p).station = p.station := by
    split
    · exact hf p
    · rfl
  simp only [updatePeer, addPeer, map_insertPeer hstation, map_update_absent h, if_true]

/-! ### Eviction (R112) -/

theorem evictable_iff {s : State} {p : Peer} :
    evictable s p = true ↔ p.link = .lost ∧ ¬ (isLocomotive s = true ∧ s.tmu.control.holder = some p.station) := by
  simp [evictable, imp_iff_not_or]

/-- A candidate stays the best before entries that are silent no longer than it. -/
theorem foldl_laterCandidate_keeps {e : Peer} {peers : List Peer} (h : ∀ p ∈ peers, p.silence ≤ e.silence) :
    peers.foldl laterCandidate (some e) = some e := by
  induction peers with
  | nil => rfl
  | cons p rest ih =>
    have hp : ¬ e.silence < p.silence := Nat.not_lt.mpr (h p (List.mem_cons_self ..))
    rw [List.foldl_cons, laterCandidate, if_neg hp]
    exact ih fun q hq => h q (List.mem_cons_of_mem _ hq)

/-- Of entries in station order the greatest silence wins, and of equal ones the lowest station. -/
theorem foldl_laterCandidate_greatest {e : Peer} {peers : List Peer} (he : e ∈ peers)
    (hsorted : peers.Pairwise (fun p q => p.station.toNat < q.station.toNat))
    (hgreatest : ∀ p ∈ peers, p.silence < e.silence ∨ (p.silence = e.silence ∧ e.station.toNat ≤ p.station.toNat)) :
    peers.foldl laterCandidate none = some e := by
  obtain ⟨before, behind, rfl⟩ := List.append_of_mem he
  obtain ⟨-, -, hbefore⟩ := List.pairwise_append.mp hsorted
  have hless (p : Peer) (hp : p ∈ before) : p.silence < e.silence := by
    rcases hgreatest p (List.mem_append_left _ hp) with h | ⟨-, h⟩
    · exact h
    · exact absurd (hbefore p hp e (List.mem_cons_self ..)) (Nat.not_lt.mpr h)
  have hwins : laterCandidate (before.foldl laterCandidate none) e = some e := by
    cases hbest : before.foldl laterCandidate none with
    | none => rfl
    | some q =>
      rcases laterCandidate_mem hbest with hq | hq
      · cases hq
      · exact if_pos (hless q hq)
  rw [List.foldl_append, List.foldl_cons, hwins]
  refine foldl_laterCandidate_keeps fun p hp => ?_
  rcases hgreatest p (List.mem_append_right _ (List.mem_cons_of_mem _ hp)) with h | ⟨h, -⟩
  · exact Nat.le_of_lt h
  · exact Nat.le_of_eq h

section
variable {b : Burst} {stamp : Stamp} {s : State}

theorem enterPeer_room (h : s.tmu.peers.length < 16) : enterPeer b stamp s = addPeer (newPeer b stamp) s := if_pos h

theorem enterPeer_full (h : 16 ≤ s.tmu.peers.length)
    (hnone : ∀ p ∈ s.tmu.peers, p.link = .lost → isLocomotive s = true ∧ s.tmu.control.holder = some p.station) :
    enterPeer b stamp s = { s with tpt.flags.peerTableFull := true } := by
  have hempty : s.tmu.peers.filter (evictable s) = [] := List.filter_eq_nil_iff.mpr fun p hp hevictable => by
    obtain ⟨hlost, hholder⟩ := evictable_iff.mp hevictable
    exact hholder (hnone p hp hlost)
  have hcandidate : evictionCandidate s = none := by simp [evictionCandidate, hempty]
  rw [enterPeer, if_neg (Nat.not_lt.mpr h), hcandidate]

theorem enterPeer_evicts {e : Peer} (h : 16 ≤ s.tmu.peers.length)
    (hsorted : s.tmu.peers.Pairwise (fun p q => p.station.toNat < q.station.toNat)) (he : e ∈ s.tmu.peers) (hlost : e.link = .lost)
    (hholder : ¬ (isLocomotive s = true ∧ s.tmu.control.holder = some e.station))
    (hgreatest : ∀ p ∈ s.tmu.peers, p.link = .lost → ¬ (isLocomotive s = true ∧ s.tmu.control.holder = some p.station) →
      p.silence < e.silence ∨ (p.silence = e.silence ∧ e.station.toNat ≤ p.station.toNat)) :
    enterPeer b stamp s = addPeer (newPeer b stamp) (removePeer e.station s) := by
  have hcandidate : evictionCandidate s = some e := by
    refine foldl_laterCandidate_greatest (List.mem_filter.mpr ⟨he, evictable_iff.mpr ⟨hlost, hholder⟩⟩) (hsorted.filter _) fun p hp => ?_
    obtain ⟨hp, hevictable⟩ := List.mem_filter.mp hp
    obtain ⟨hplost, hpholder⟩ := evictable_iff.mp hevictable
    exact hgreatest p hp hplost hpholder
  rw [enterPeer, if_neg (Nat.not_lt.mpr h), hcandidate]

/-- The new entry's update changes it alone, however it came in; where none came in nothing changes. -/
theorem updatePeer_enterPeer (habsent : ∀ p ∈ s.tmu.peers, p.station ≠ b.sender) {f : Peer → Peer}
    (hf : ∀ p, (f p).station = p.station) (hnew : f (newPeer b stamp) = newPeer b stamp) :
    updatePeer b.sender f (enterPeer b stamp s) = enterPeer b stamp s := by
  rcases enterPeer_cases b stamp s with ⟨-, heq⟩ | ⟨-, e, -, heq⟩ | ⟨-, -, heq⟩
  · rw [heq]
    exact (updatePeer_addPeer (new := newPeer b stamp) habsent hf).trans (by rw [hnew])
  · rw [heq]
    exact (updatePeer_addPeer (new := newPeer b stamp) (s := removePeer e.station s) (fun p hp => habsent p (List.mem_filter.mp hp).1) hf).trans
      (by rw [hnew])
  · rw [heq]
    exact updatePeer_absent (s := { s with tpt.flags.peerTableFull := true }) habsent f

/-! ### The peer step (R112, R113) -/

theorem handedFlag_presence (h : b.kind = .presence) : handedFlag b = b.presence := if_pos h

theorem handedFlag_ne_leaving (h : b.kind ≠ .presence ∨ b.presence ≠ .leaving) : handedFlag b ≠ .leaving := by
  unfold handedFlag
  split
  · rename_i hkind
    exact h.resolve_left fun hne => hne hkind
  · decide

/-- R113: what a joining PRESENCE makes of the sender's entry, and what any other burst leaves. -/
def forgetIfJoining (b : Burst) (p : Peer) : Peer :=
  { p with lastDelivered := if b.kind = .presence ∧ b.presence = .joining then none else p.lastDelivered }

theorem actOnFlag_of_not_leaving (h : handedFlag b ≠ .leaving) (s : State) :
    actOnFlag b s = updatePeer b.sender (forgetIfJoining b) s := by
  have hjoining : handedFlag b = .joining ↔ b.kind = .presence ∧ b.presence = .joining := by
    unfold handedFlag
    split
    · rename_i hkind
      simp [hkind]
    · rename_i hkind
      simp [hkind]
  unfold actOnFlag
  split
  · rename_i hnormal
    have hnot : ¬(b.kind = .presence ∧ b.presence = .joining) := fun hj => by
      cases hnormal.symm.trans (hjoining.mpr hj)
    have hsame : forgetIfJoining b = fun p => p := funext fun p => by simp [forgetIfJoining, hnot]
    simp [updatePeer, hsame]
  · rename_i hj
    have hforget : forgetIfJoining b = fun p => { p with lastDelivered := none } := funext fun p => by
      simp [forgetIfJoining, hjoining.mp hj]
    rw [hforget]
  · rename_i hleaving
    exact absurd hleaving h

theorem findPeer_of_mem (h : ∃ p ∈ s.tmu.peers, p.station = b.sender) : ∃ p, findPeer b.sender s = some p := by
  obtain ⟨p, hp, hs⟩ := h
  cases hfind : findPeer b.sender s with
  | some q => exact ⟨q, rfl⟩
  | none => exact absurd hs (findPeer_none hfind p hp)

theorem findPeer_of_absent (h : ∀ p ∈ s.tmu.peers, p.station ≠ b.sender) : findPeer b.sender s = none := by
  cases hfind : findPeer b.sender s with
  | none => rfl
  | some q =>
    obtain ⟨hq, hs⟩ := findPeer_some hfind
    exact absurd hs (h q hq)

/-- The sender's entry after the peer step of a burst that does not take it away. -/
def heardPeer (b : Burst) (stamp : Stamp) (p : Peer) : Peer := forgetIfJoining b (refreshPeer stamp p)

theorem peerStep_refreshes (hflag : handedFlag b ≠ .leaving) (h : ∃ p ∈ s.tmu.peers, p.station = b.sender) :
    peerStep b stamp s = updatePeer b.sender (heardPeer b stamp) s := by
  obtain ⟨p, hp⟩ := findPeer_of_mem h
  simp only [peerStep, hp, actOnFlag_of_not_leaving hflag]
  exact updatePeer_updatePeer (f := refreshPeer stamp) (fun _ => rfl) _ s

theorem peerStep_enters (hflag : handedFlag b ≠ .leaving) (h : ∀ p ∈ s.tmu.peers, p.station ≠ b.sender) :
    peerStep b stamp s = enterPeer b stamp s := by
  simp only [peerStep, findPeer_of_absent h, if_neg hflag, actOnFlag_of_not_leaving hflag]
  refine updatePeer_enterPeer h (fun _ => rfl) ?_
  simp [forgetIfJoining, newPeer]

theorem peerStep_leaving_absent (hflag : handedFlag b = .leaving) (h : ∀ p ∈ s.tmu.peers, p.station ≠ b.sender) :
    peerStep b stamp s = s := by
  simp only [peerStep, findPeer_of_absent h, if_pos hflag]

theorem peerStep_leaving_present (hflag : handedFlag b = .leaving) (h : ∃ p ∈ s.tmu.peers, p.station = b.sender) :
    peerStep b stamp s = if s.tmu.control.holder = some b.sender then makeUnheld (removePeer b.sender s) else removePeer b.sender s := by
  obtain ⟨p, hp⟩ := findPeer_of_mem h
  simp only [peerStep, hp, actOnFlag, hflag, removePeer_updatePeer (f := refreshPeer stamp) (fun _ => rfl)]
  rfl

end

/-- Settles O8. -/
theorem peerStepRefreshesEntersOrEvicts : Obligations.PeerStepRefreshesEntersOrEvicts := by
  refine ⟨fun b stamp s => ⟨fun hnot => ⟨fun hpresent => ?_, ?_⟩, fun hkind hleaving habsent => ?_⟩,
    fun new peers => ⟨fun p => mem_insertPeer, insertPeer_length new peers, insertPeer_pairwise⟩⟩
  · exact peerStep_refreshes (handedFlag_ne_leaving hnot) hpresent
  · rintro habsent new rfl
    rw [peerStep_enters (handedFlag_ne_leaving hnot) habsent]
    exact ⟨enterPeer_room, fun hfull => ⟨enterPeer_full hfull, fun hsorted e he hlost hholder hgreatest =>
      enterPeer_evicts hfull hsorted he hlost hholder hgreatest⟩⟩
  · exact peerStep_leaving_absent ((handedFlag_presence hkind).trans hleaving) habsent

/-! ### A PRESENCE of the home team (R112, R113) -/

/-- R113: what a locomotive's entry takes from the body. -/
def reportedPeer (b : Burst) (p : Peer) : Peer :=
  if p.role = .locomotive then
    { p with reportedHolder := some (wordAt b.body 0), reportedCauses := some (Causes.ofByte (octetAt b.body 2)) }
  else p

theorem reportedPeer_station (b : Burst) (p : Peer) : (reportedPeer b p).station = p.station := by
  unfold reportedPeer
  split <;> rfl

theorem presenceBody_eq_updatePeer (b : Burst) (s : State) : presenceBody b s = updatePeer b.sender (reportedPeer b) s := rfl

section
variable {octets : List Byte} {stamp : Stamp} {s : State} {b : Burst}

theorem exec_burstReceived_presence (hreceiving : Receiving stamp s) (hcrc : crcGood octets = true) (hb : b = readBurst octets)
    (hmember : FromMember b s) (hkind : b.kind = .presence) :
    exec (.burstReceived octets) s = .next (settle (presenceBody b (peerStep b stamp (heardGood b s)))) := by
  obtain ⟨hown, hstation, hteam, hhome⟩ := hmember
  obtain ⟨h0, h1⟩ := isStation_iff.mp hstation
  rw [exec_burstReceived_crcGood hreceiving hcrc, ← hb, goodBurst_station stamp hown h0 h1, sortByTeam_home (s := heardGood b s) stamp hteam hhome,
    routeHomeBurst_presence stamp _ hkind]

/-- A leaving PRESENCE of a sender with an entry: the entry goes, and with a locomotive's holder its control. -/
theorem presence_leaving_present (hflag : handedFlag b = .leaving) (h : ∃ p ∈ s.tmu.peers, p.station = b.sender) {dropped : Bool}
    (hdropped : dropped = (isLocomotive s && decide (s.tmu.control.holder = some b.sender))) :
    presenceBody b (peerStep b stamp s) =
      { s with
        tmu.peers := s.tmu.peers.filter (fun p => decide (p.station ≠ b.sender))
        tmu.control := if dropped then .unheld else s.tmu.control
        stu.causes.noHolder := s.stu.causes.noHolder || dropped
        tpt.flags.causesChanged := s.tpt.flags.causesChanged || (dropped && !s.stu.causes.noHolder) } := by
  have hgone : ∀ p ∈ s.tmu.peers.filter (fun p => decide (p.station ≠ b.sender)), p.station ≠ b.sender :=
    fun p hp => of_decide_eq_true (List.mem_filter.mp hp).2
  rw [peerStep_leaving_present hflag h, presenceBody_eq_updatePeer]
  cases hl : isLocomotive s with
  | false =>
    have hdropped' : dropped = false := by simpa [hl] using hdropped
    have hportable : makeUnheld (removePeer b.sender s) = removePeer b.sender s := by
      have hl' : isLocomotive (removePeer b.sender s) = false := hl
      simp [makeUnheld, hl']
    rw [hportable, ite_self, updatePeer_absent hgone]
    simp [hdropped', removePeer]
  | true =>
    by_cases hholder : s.tmu.control.holder = some b.sender
    · have hdropped' : dropped = true := by simpa [hl, hholder] using hdropped
      rw [if_pos hholder, makeUnheld_of_locomotive (s := removePeer b.sender s) hl, updatePeer_absent hgone]
      simp [hdropped', removePeer]
    · have hdropped' : dropped = false := by simpa [hl, hholder] using hdropped
      rw [if_neg hholder, updatePeer_absent hgone]
      simp [hdropped', removePeer]

/-- A normal or joining PRESENCE of a sender with an entry. -/
theorem presence_present (hflag : handedFlag b ≠ .leaving) (hkind : b.kind = .presence) (h : ∃ p ∈ s.tmu.peers, p.station = b.sender) :
    presenceBody b (peerStep b stamp s) =
      { s with tmu.peers := s.tmu.peers.map (fun p => if p.station = b.sender then
          { p with
            silence := 0
            link := .active
            lastHeard := stamp
            lastDelivered := if b.presence = .joining then none else p.lastDelivered
            reportedHolder := if p.role = .locomotive then some (wordAt b.body 0) else p.reportedHolder
            reportedCauses := if p.role = .locomotive then some (Causes.ofByte (octetAt b.body 2)) else p.reportedCauses }
          else p) } := by
  have hpeer (p : Peer) : reportedPeer b (heardPeer b stamp p) =
      { p with
        silence := 0
        link := .active
        lastHeard := stamp
        lastDelivered := if b.presence = .joining then none else p.lastDelivered
        reportedHolder := if p.role = .locomotive then some (wordAt b.body 0) else p.reportedHolder
        reportedCauses := if p.role = .locomotive then some (Causes.ofByte (octetAt b.body 2)) else p.reportedCauses } := by
    cases hr : p.role <;> simp [reportedPeer, heardPeer, forgetIfJoining, refreshPeer, hkind, hr]
  rw [peerStep_refreshes hflag h, presenceBody_eq_updatePeer, updatePeer_updatePeer (f := heardPeer b stamp) (fun _ => rfl)]
  simp only [hpeer]
  rfl

/-- The entry that a PRESENCE makes. -/
theorem reportedPeer_newPeer (b : Burst) (stamp : Stamp) : reportedPeer b (newPeer b stamp) =
    { station := b.sender, role := b.role, link := .active, silence := 0, lastHeard := stamp
      reportedHolder := if b.role = .locomotive then some (wordAt b.body 0) else none
      reportedCauses := if b.role = .locomotive then some (Causes.ofByte (octetAt b.body 2)) else none
      lastDelivered := none } := by
  cases hr : b.role <;> simp [reportedPeer, newPeer, hr]

theorem presence_addPeer (h : ∀ p ∈ s.tmu.peers, p.station ≠ b.sender) :
    presenceBody b (addPeer (newPeer b stamp) s) = addPeer (reportedPeer b (newPeer b stamp)) s :=
  updatePeer_addPeer (new := newPeer b stamp) h (reportedPeer_station b)

end

/-- Settles O9. -/
theorem presenceActsOnItsSendersEntry : Obligations.PresenceActsOnItsSendersEntry := by
  intro octets stamp s hreceiving hcrc b hb hmember hkind
  have hexec := exec_burstReceived_presence hreceiving hcrc hb hmember hkind
  have hflag : handedFlag b = b.presence := handedFlag_presence hkind
  rw [hexec]
  refine ⟨fun hpresent => ⟨fun hleaving dropped hdropped => ?_, fun hnot => ?_⟩, fun habsent => ⟨fun hleaving => ?_, ?_⟩⟩
  · rw [presence_leaving_present (s := heardGood b s) (hflag.trans hleaving) hpresent hdropped]
    rfl
  · rw [presence_present (s := heardGood b s) (hflag ▸ hnot) hkind hpresent]
    rfl
  · rw [peerStep_leaving_absent (s := heardGood b s) (hflag.trans hleaving) habsent, presenceBody_eq_updatePeer,
      updatePeer_absent (s := heardGood b s) habsent]
  · rintro hnot new rfl
    rw [peerStep_enters (s := heardGood b s) (hflag ▸ hnot) habsent, ← reportedPeer_newPeer b stamp]
    refine ⟨fun hroom => ?_, fun hfull => ⟨fun hnone => ?_, fun hsorted e he hlost hholder hgreatest => ?_⟩⟩
    · rw [enterPeer_room (s := heardGood b s) hroom, presence_addPeer (s := heardGood b s) habsent]
      rfl
    · rw [enterPeer_full (s := heardGood b s) hfull hnone, presenceBody_eq_updatePeer,
        updatePeer_absent (s := { heardGood b s with tpt.flags.peerTableFull := true }) habsent]
    · rw [enterPeer_evicts (s := heardGood b s) hfull hsorted he hlost hholder hgreatest,
        presence_addPeer (s := removePeer e.station (heardGood b s)) fun p hp => habsent p (List.mem_filter.mp hp).1]
      rfl

end Sys2Proof.Machine
end

section
/-! PROOF. A one-fragment STOP stops a locomotive whatever the room in its queues (07 section 7.6, 08 section 8.2). -/

namespace Sys2Proof.Machine

section
variable {s : State}

theorem putRadioStop_radioStop (h : isLocomotive s = true) : (putRadioStop s).stu.causes.radioStop = true := by
  rw [putRadioStop_of_locomotive h]

theorem decideVerdict_stop_state (sender : Station) {callType : Byte} (hl : isLocomotive s = true) (htype : callType = 3) :
    (decideVerdict sender callType s).2 = putRadioStop s := by
  subst htype
  rw [decideVerdict, if_pos hl]
  rfl

/-- A whole STOP puts RADIO_STOP in, the duplicate as the new one, before room in the RCQ is looked for (R62 to R64). -/
theorem completeCall_stop {i : Nat} {c : Context} {index : Nat} {stamp : Stamp} (hl : isLocomotive s = true) (htype : c.callType = 3)
    (hlength : c.buffers.length = fragmentCount c.length) : (completeCall i c index stamp s).stu.causes.radioStop = true := by
  cases hduplicate : duplicateVerdict c (callDigest c s) s with
  | some v =>
    rw [completeCall_duplicate hlength hduplicate]
    unfold completeDuplicate
    dsimp only
    rw [if_pos (CallType.ofByte_eq_stop_iff.mpr htype)]
    exact putRadioStop_radioStop (by rw [isLocomotive_of_cfl (s := s) (by simp)]; exact hl)
  | none =>
    rw [completeCall_new hlength hduplicate]
    unfold completeNew
    dsimp only
    rw [if_pos (partActed_of_type hl (.inl htype)), decideVerdict_stop_state c.sender hl htype]
    simpa using putRadioStop_radioStop hl

/-- A STOP of one fragment that finds a context and a buffer. -/
theorem startCall_stop {b : Burst} {stamp : Stamp} (hl : isLocomotive s = true) (hlast : b.last = true) (htype : octetAt b.body 0 = 3)
    (hlength : (octetAt b.body 1).toNat ≤ 20) (hfree : s.bpl.free ≠ []) (hcontext : none ∈ s.asu.contexts) :
    (startCall b stamp s).stu.causes.radioStop = true := by
  obtain ⟨buffer, free, hfree⟩ := List.exists_cons_of_ne_nil hfree
  obtain ⟨i, hi⟩ : ∃ i, firstEmpty s.asu.contexts = some i :=
    Option.ne_none_iff_exists'.mp fun hnone => firstEmpty_eq_none_iff.mp hnone hcontext
  have hnamed : CallType.ofByte (octetAt b.body 0) ≠ none := by rw [CallType.ofByte_eq_stop_iff.mpr htype]; nofun
  rw [startCall_takesBuffer hi hfree, if_neg hnamed, if_pos hlast]
  exact completeCall_stop (s := takeBuffer buffer b.body s) hl htype (by simp [contextFrom, fragmentCount, hlength])

theorem fragmentZero_stop {b : Burst} {stamp : Stamp} (hl : isLocomotive s = true) (hlast : b.last = true) (htype : octetAt b.body 0 = 3)
    (hlength : (octetAt b.body 1).toNat ≤ 20) (hfree : s.bpl.free ≠ []) (hcontext : none ∈ s.asu.contexts)
    (hnew : ∀ c ∈ inUse s.asu.contexts, c.sender = b.sender → c.callNumber ≠ b.callNumber) :
    (fragmentZero b stamp s).stu.causes.radioStop = true := by
  cases hof : contextOf b.sender s with
  | none =>
    rw [fragmentZero_starts hof]
    exact startCall_stop hl hlast htype hlength hfree hcontext
  | some found =>
    obtain ⟨i, c⟩ := found
    obtain ⟨hc, hsender⟩ := contextOf_some hof
    rw [fragmentZero_supersedes hof (hnew c (mem_inUse_of_slotAt hc) hsender)]
    refine startCall_stop ?_ hlast htype hlength ?_ ?_
    · rw [isLocomotive_of_cfl (s := s) (by simp)]
      exact hl
    · simp [abandon, hfree]
    · obtain ⟨j, hj, hnone⟩ := List.mem_iff_getElem.mp hcontext
      refine List.mem_iff_getElem.mpr ⟨j, by simpa using hj, ?_⟩
      simp [List.getElem_set, hnone]

end

theorem stopdAsserted_of_radioStop {s : State} (hl : isLocomotive s = true) (h : s.stu.causes.radioStop = true) :
    stopdAsserted s = true := by
  have hne : s.stu.causes ≠ {} := by
    intro heq
    simp [heq] at h
  simp [stopdAsserted, hl, Causes.isEmpty, hne]

/-- Settles O17. -/
theorem oneFragmentStopAlwaysStops : Obligations.OneFragmentStopAlwaysStops := by
  intro octets stamp s hreceiving hcrc hl b hb hmember hforUs hkind hindex hlast htype hlength hfree hcontext hnew
  obtain ⟨hown, hstation, hteam, hhome⟩ := hmember
  obtain ⟨h0, h1⟩ := isStation_iff.mp hstation
  have hcfl : (peerStep b stamp (heardGood b s)).cfl = s.cfl := by simp [heardGood]
  have hexec : exec (.burstReceived octets) s = .next (settle (fragmentZero b stamp (peerStep b stamp (heardGood b s)))) := by
    have hforUs' : ForUs b (peerStep b stamp (heardGood b s)) := by rwa [ForUs, config_of_cfl hcfl]
    rw [exec_burstReceived_crcGood hreceiving hcrc, ← hb, goodBurst_station stamp hown h0 h1,
      sortByTeam_home (s := heardGood b s) stamp hteam hhome, routeHomeBurst_call stamp _ hkind, callArrived_forUs stamp hforUs',
      if_pos hindex]
  have hloc : isLocomotive (peerStep b stamp (heardGood b s)) = true := (isLocomotive_of_cfl hcfl).trans hl
  have hstop : (fragmentZero b stamp (peerStep b stamp (heardGood b s))).stu.causes.radioStop = true :=
    fragmentZero_stop hloc hlast htype hlength (by simpa [heardGood] using hfree) (by simpa [heardGood] using hcontext)
      (by simpa [heardGood] using hnew)
  have hradio : (settle (fragmentZero b stamp (peerStep b stamp (heardGood b s)))).stu.causes.radioStop = true := by
    simpa [settle] using hstop
  refine ⟨_, hexec, hradio, stopdAsserted_of_radioStop ?_ (by simpa using hstop)⟩
  rw [isLocomotive_of_cfl (s := peerStep b stamp (heardGood b s)) (by simp)]
  exact hloc

end Sys2Proof.Machine
end

section
/-! PROOF. Which order sends, and how one finishes (06 sections 6.2, 6.3, 6.7). -/

namespace Sys2Proof.Machine

/-! ### The oldest QUEUED order (R90) -/

theorem oldestQueuedFrom_none {n : Nat} {slots : List (Option Order)} (h : oldestQueuedFrom n slots = none) :
    ∀ o ∈ inUse slots, o.state ≠ .queued := by
  induction slots generalizing n with
  | nil => simp [inUse]
  | cons x rest ih =>
    cases x with
    | none => exact ih h
    | some p =>
      unfold oldestQueuedFrom at h
      dsimp only at h
      split at h
      · split at h
        · split at h <;> cases h
        · cases h
      · rename_i hp
        intro o ho
        rcases List.mem_cons.mp ho with rfl | ho
        · exact hp
        · exact ih h o ho

theorem promote_of_sending {s : State} (h : ∃ o ∈ inUse s.odu.ool, o.state = .sending) : promote s = s := by
  rcases promote_cases s with heq | ⟨-, -, hnone, -⟩
  · exact heq
  · obtain ⟨o, ho, hs⟩ := h
    obtain ⟨i, hi⟩ := mem_inUse_iff.mp ho
    exact absurd hs (sendingOrder_none hnone hi)

theorem promote_of_no_queued {s : State} (h : ∀ o ∈ inUse s.odu.ool, o.state ≠ .queued) : promote s = s := by
  rcases promote_cases s with heq | ⟨slot, o, -, holdest, -⟩
  · exact heq
  · obtain ⟨ho, hq⟩ := oldestQueued_some holdest
    exact absurd hq (h o (mem_inUse_iff.mpr ⟨slot, ho⟩))

theorem promote_of_oldest {s : State} {slot : Nat} {o : Order} (hsending : ∀ o ∈ inUse s.odu.ool, o.state ≠ .sending)
    (ho : orderAt slot s = some o) (hq : o.state = .queued)
    (holdest : ∀ other p, orderAt other s = some p → p.state = .queued → other ≠ slot → o.sequence < p.sequence) :
    promote s = setSlot slot (some (becomeSending o s)) s := by
  have hnone : sendingOrder s = none := by
    cases hs : sendingOrder s with
    | none => rfl
    | some found =>
      obtain ⟨hat, hsent⟩ := sendingOrder_some (slot := found.1) (o := found.2) hs
      exact absurd hsent (hsending _ (mem_inUse_iff.mpr ⟨_, hat⟩))
  have hfound : oldestQueued s = some (slot, o) := by
    cases hold : oldestQueued s with
    | none => exact absurd hq (oldestQueuedFrom_none hold o (mem_inUse_iff.mpr ⟨slot, ho⟩))
    | some found =>
      obtain ⟨other, p⟩ := found
      obtain ⟨-, hat, hpq, hleast⟩ := oldestQueuedFrom_some hold
      have hsame : other = slot := by
        by_contra hne
        exact absurd (hleast slot o ho hq) (Nat.not_le.mpr (holdest other p hat hpq hne))
      subst hsame
      cases ho.symm.trans hat
      rfl
  simp only [promote, hnone, hfound]

/-- Settles O33. -/
theorem oldestQueuedOrderSends : Obligations.OldestQueuedOrderSends := by
  refine fun s => ⟨fun h => h.elim promote_of_sending promote_of_no_queued, ?_⟩
  rintro hsending slot o ho hq holdest set rfl
  rw [promote_of_oldest hsending ho hq holdest]
  have hset : readbackSet o s = (if o.confirm = false then []
      else if o.target = 65535 then
        ((s.tmu.peers.filter (fun p => decide (p.role = .locomotive ∧ p.link ≠ .lost))).take 6).map Peer.station
      else [o.target]).map (fun m => { station := m, answer := none }) := by
    unfold readbackSet wholeTeam
    split
    · rfl
    · split
      · rw [List.map_map]
        rfl
      · rfl
  rw [becomeSending, hset]
  rfl

/-! ### A finishing order (R101, R103) -/

theorem emptyStaging_eq (s : State) : emptyStaging s =
    { s with
      cau.staging := none
      cau.access := if s.cau.access = .gap ∨ s.cau.access = .backoff then .idle else s.cau.access
      cau.gapCount := if s.cau.access = .gap ∨ s.cau.access = .backoff then 0 else s.cau.gapCount
      cau.slotCount := if s.cau.access = .gap ∨ s.cau.access = .backoff then 0 else s.cau.slotCount } := by
  unfold emptyStaging
  dsimp only
  by_cases h : s.cau.access = .gap ∨ s.cau.access = .backoff
  · simp only [if_pos h]
  · simp only [if_neg h]

/-- A withdrawn fragment's order stands nowhere, and 256 is given back. -/
theorem withdraw_fragment {slot index : Nat} {o : Order} {st : Staged} {s : State} (ho : orderAt slot s = some o)
    (hst : s.cau.staging = some st) (hsource : st.source = .fragment slot index) :
    withdraw (isFragmentOf slot) s = setSlot slot (some { o with place := .none }) (refundCredit (emptyStaging s)) := by
  have hat : orderAt slot (refundCredit (emptyStaging s)) = some o := by
    rw [emptyStaging_eq]
    exact ho
  have hgiven : withdraw (isFragmentOf slot) s = giveBack (.fragment slot index) (emptyStaging s) := by
    simp [withdraw, hst, hsource, isFragmentOf]
  rw [hgiven]
  exact setPlace_of_orderAt .none hat

theorem offerResult_setSlot (slot : Nat) (x : Option Order) (p : Order) (s : State) :
    offerResult slot p (setSlot slot x s) = offerResult slot p s := by
  unfold offerResult
  by_cases h : s.odu.rsq.length < 8
  · have h' : (setSlot slot x s).odu.rsq.length < 8 := h
    rw [if_pos h, if_pos h']
    exact setSlot_setSlot slot none x { s with odu.rsq := s.odu.rsq ++ [resultOf slot p] }
  · have h' : ¬ (setSlot slot x s).odu.rsq.length < 8 := h
    rw [if_neg h, if_neg h']
    exact setSlot_setSlot slot (some p) x { s with odu.finishedSlots := s.odu.finishedSlots ++ [slot] }

theorem finishOrder_of_not_staged {slot : Nat} {o : Order} {s : State} (outcome : OrderOutcome) (ho : orderAt slot s = some o)
    (hplace : o.place ≠ .staged) :
    finishOrder slot outcome s = promote (offerResult slot (finished o outcome s.time) (returnBuffers o.buffers s)) := by
  simp only [finishOrder, ho, if_neg hplace, returnBuffers_time]

theorem finishOrder_of_staged {slot index : Nat} {o : Order} {st : Staged} {s : State} (outcome : OrderOutcome)
    (ho : orderAt slot s = some o) (hplace : o.place = .staged) (hst : s.cau.staging = some st)
    (hsource : st.source = .fragment slot index) :
    finishOrder slot outcome s =
      promote (offerResult slot (finished o outcome s.time) (returnBuffers o.buffers (refundCredit (emptyStaging s)))) := by
  have hwithdrawn := withdraw_fragment ho hst hsource
  simp only [finishOrder, ho, if_pos hplace]
  rw [hwithdrawn]
  exact congrArg promote (offerResult_setSlot slot _ _ (returnBuffers o.buffers (refundCredit (emptyStaging s))))

/-- Settles O35. -/
theorem finishingReturnsBuffersAndOffersTheResult : Obligations.FinishingReturnsBuffersAndOffersTheResult := by
  intro slot o outcome s ho silent hsilent
  have hfinish : finishOrder slot outcome s =
      promote (offerResult slot (finished o outcome s.time) (returnBuffers o.buffers silent)) ∧ silent.odu = s.odu ∧ silent.bpl = s.bpl := by
    rcases hsilent with ⟨hplace, rfl⟩ | ⟨hplace, ⟨st, index, hst, hsource⟩, rfl⟩
    · exact ⟨finishOrder_of_not_staged outcome ho hplace, rfl, rfl⟩
    · refine ⟨?_, rfl, rfl⟩
      rw [finishOrder_of_staged outcome ho hplace hst hsource, emptyStaging_eq]
      rfl
  obtain ⟨hfinish, hodu, hbpl⟩ := hfinish
  rw [hfinish, ← hodu, ← hbpl]
  refine ⟨fun hroom => ?_, fun hfull => ?_⟩
  · exact congrArg promote (if_pos hroom)
  · exact congrArg promote (if_neg (Nat.not_lt.mpr hfull))

/-! ### An accepted submission (R86 to R89) -/

theorem slotAt_eq_none_of_getElem? {α : Type} {slots : List (Option α)} {i : Nat} (h : slots[i]? = some none) : slotAt slots i = none := by
  simp [slotAt, List.getD, h]

theorem firstEmpty_of_getElem? {α : Type} {slots : List (Option α)} {i : Nat} (h : slots[i]? = some none)
    (hbefore : ∀ n < i, slots[n]? ≠ some none) : firstEmpty slots = some i := by
  induction slots generalizing i with
  | nil => simp at h
  | cons x rest ih =>
    cases i with
    | zero =>
      cases x with
      | none => rfl
      | some a => simp at h
    | succ i =>
      cases x with
      | none => exact absurd rfl (hbefore 0 (Nat.succ_pos i))
      | some a =>
        have hrest := ih (i := i) (by simpa using h) fun n hn => by simpa using hbefore (n + 1) (by omega)
        simp [firstEmpty, hrest]

theorem submitOrder_of_accepted {sub : Submission} {s : State} {slot : Nat} (h : submissionRefusal sub s = none)
    (hslot : firstEmpty s.odu.ool = some slot) :
    submitOrder sub s = accept [octet slot, nextNumber s] (arbitrate (acceptOrder slot sub s)) := by
  simp only [submitOrder, h, hslot]

/-- Settles O32. -/
theorem acceptedSubmissionsBecomeOrders : Obligations.AcceptedSubmissionsBecomeOrders := by
  rintro f s sub t slot hf rfl hrun hattached hstays htype hrelease hoffer htaken hlength hmove hcountdown hempty hcut htarget hslot hbefore
    hbuffers order rfl
  have hpermitted := submissionPermitted_iff.mpr ⟨hrelease, hoffer, htaken⟩
  have hfits := submissionLengthFits_iff.mpr ⟨hlength, hmove, hcountdown, hempty, hcut⟩
  have hmem : none ∈ s.odu.ool := List.mem_of_getElem? hslot
  have hnone : submissionRefusal (readSubmission f.params) s = none := by
    rw [submissionRefusal_of_fits hrun hattached hstays htype hpermitted hfits, if_neg (not_not_intro htarget),
      if_neg (not_not_intro hmem), if_neg (Nat.not_lt.mpr hbuffers)]
  exact answerFrame_accepted hf (submitOrder_of_accepted hnone (firstEmpty_of_getElem? hslot hbefore))

end Sys2Proof.Machine
end

section
/-! PROOF. Every command has a next state, keeps the queue and, but for a reset, the time; and an event out of its place changes nothing
(log 3). -/

namespace Sys2Proof.Machine

/-! ### Every command ends -/

theorem exists_next_ite {p : Prop} [Decidable p] {x y : Host.Outcome State Fault Refusal} (hx : ∃ t, x = .next t) (hy : ∃ t, y = .next t) :
    ∃ t, (if p then x else y) = .next t := by
  split
  · exact hx
  · exact hy

theorem exists_next_taken_ite {p : Prop} [Decidable p] (effect s : State) : ∃ t, (if p then taken effect else notTaken s) = .next t :=
  exists_next_ite ⟨_, rfl⟩ ⟨_, rfl⟩

theorem answerFrame_exists_next (c : PortCommand) (f : Frame) (own : State → PortResult) (s : State) :
    ∃ t, answerFrame c f own s = .next t := by
  unfold answerFrame
  refine exists_next_ite ?_ ⟨_, rfl⟩
  split
  · exact ⟨_, rfl⟩
  · exact ⟨_, rfl⟩

theorem exec_exists_next (c : Instr) (s : State) : ∃ t, exec c s = .next t := by
  cases c with
  | reset cause => exact exists_next_ite ⟨_, rfl⟩ ⟨_, rfl⟩
  | burstReceived octets =>
    change ∃ t, execBurstReceived octets s = .next t
    unfold execBurstReceived
    split
    · exact ⟨_, rfl⟩
    · exact ⟨_, rfl⟩
  | emergencyKeyEdge => exact exists_next_ite ⟨_, rfl⟩ (exists_next_ite ⟨_, rfl⟩ ⟨_, rfl⟩)
  | cabStopTransition active => exact exists_next_ite ⟨_, rfl⟩ ⟨_, rfl⟩
  | selectActive => exact exists_next_ite ⟨_, rfl⟩ ⟨_, rfl⟩
  | selectInactive => exact exists_next_ite ⟨_, rfl⟩ ⟨_, rfl⟩
  | badCommand code f => exact exists_next_ite ⟨_, rfl⟩ ⟨_, rfl⟩
  | readStatus f => exact answerFrame_exists_next ..
  | submitOrder f => exact answerFrame_exists_next ..
  | cancelOrder f => exact answerFrame_exists_next ..
  | takeCall f => exact answerFrame_exists_next ..
  | releaseCall f => exact answerFrame_exists_next ..
  | takeException f => exact answerFrame_exists_next ..
  | takeResult f => exact answerFrame_exists_next ..
  | readPeers f => exact answerFrame_exists_next ..
  | sendAllstop f => exact answerFrame_exists_next ..
  | stopRequest f => exact answerFrame_exists_next ..
  | clearTerminalStop f => exact answerFrame_exists_next ..
  | joinTeam f => exact answerFrame_exists_next ..
  | leaveTeam f => exact answerFrame_exists_next ..
  | narrowRange f => exact answerFrame_exists_next ..
  | readCounts f => exact answerFrame_exists_next ..
  | readAndClearCounts f => exact answerFrame_exists_next ..
  | setMask f => exact answerFrame_exists_next ..
  | restart f => exact answerFrame_exists_next ..
  | _ => exact exists_next_taken_ite _ s

/-! ### The queue and the time -/

/-- Time counter and queue as before. -/
def SameClock (s t : State) : Prop := t.time = s.time ∧ t.pending = s.pending

section
variable {s t : State}

theorem sameClock_octetRead (x : Byte) (s : State) : SameClock s (octetRead x s) := by
  unfold octetRead checkBlock
  dsimp only
  split
  · split
    · exact ⟨rfl, rfl⟩
    · split
      · exact ⟨rfl, rfl⟩
      · exact ⟨rfl, rfl⟩
  · exact ⟨rfl, rfl⟩

theorem sameClock_restartRunning (s : State) : SameClock s (restartRunning s) := by
  unfold restartRunning SameClock
  dsimp only
  split
  · simp
  · exact ⟨rfl, rfl⟩

theorem sameClock_settle {effect : State} (h : SameClock s effect) : SameClock s (settle effect) := by
  simpa [settle, SameClock] using h

theorem sameClock_taken {p : Prop} {effect : State} (hnext : p ∧ t = drivePins effect ∨ ¬p ∧ t = s) (h : SameClock s effect) :
    SameClock s t := taken_keeps (P := SameClock s) hnext ⟨rfl, rfl⟩ fun _ => h

theorem sameClock_arbitrated {p : Prop} {effect : State} (hnext : p ∧ t = drivePins (arbitrate effect) ∨ ¬p ∧ t = s)
    (h : SameClock s effect) : SameClock s t := taken_keeps (P := SameClock s) hnext ⟨rfl, rfl⟩ fun _ => sameClock_settle h

theorem sameClock_leaves {r : PortResult} {effect : State} (hl : leaves r s effect) (h : SameClock s effect) : SameClock s r.state :=
  leaves_keeps (P := SameClock s) (fun _ h => h) hl ⟨rfl, rfl⟩ h

theorem sameClock_arbitrate {effect : State} (h : SameClock s effect) : SameClock s (arbitrate effect) := by
  simpa [SameClock] using h

theorem sameClock_answerFrame {c : PortCommand} {f : Frame} {own : State → PortResult} (hown : SameClock s (own s).state)
    (hnext : answerFrame c f own s = .next t) : SameClock s t :=
  answerFrame_keeps (P := SameClock s) (fun _ _ _ _ h => h) ⟨rfl, rfl⟩ hown hnext

theorem sameClock_submitOrder (sub : Submission) (s : State) : SameClock s (submitOrder sub s).state := by
  obtain ⟨slot, hl, -⟩ := submitOrder_leaves sub s
  exact sameClock_leaves hl (sameClock_arbitrate (by simp [SameClock]))

theorem sameClock_cancelInSlot (slot : Byte) (s : State) : SameClock s (cancelInSlot slot s).state := by
  rcases cancelInSlot_leaves slot s with ⟨heq, -⟩ | ⟨o, -, -, -, heq⟩
  · rw [heq]
    exact ⟨rfl, rfl⟩
  · rw [heq]
    exact sameClock_arbitrate (by simp [SameClock])

theorem sameClock_takeCall (s : State) : SameClock s (takeCall s).state := by
  rcases takeCall_leaves s with ⟨heq, -⟩ | ⟨r, rest, -, heq⟩
  · exact heq ▸ ⟨rfl, rfl⟩
  · exact heq ▸ ⟨rfl, rfl⟩

theorem sameClock_releaseCall (handle : Byte) (s : State) : SameClock s (releaseCall handle s).state := by
  rcases releaseCall_leaves handle s with ⟨heq, -⟩ | ⟨call, -, -, -, heq⟩
  · exact heq ▸ ⟨rfl, rfl⟩
  · exact heq ▸ ⟨rfl, rfl⟩

theorem sameClock_sendAllstop (scope : Byte) (s : State) : SameClock s (sendAllstop scope s).state := by
  obtain ⟨team, hl⟩ := sendAllstop_leaves scope s
  exact sameClock_leaves hl (sameClock_arbitrate (by simp [SameClock]))

theorem sameClock_setTerminal (present : Bool) (s : State) : SameClock s (accept [] (setTerminal present s)).state := by
  simp [SameClock, accept]

theorem sameClock_joined (team : Team) (s : State) : SameClock s (joined team s) := by
  unfold joined
  simp [SameClock]

theorem sameClock_restart (s : State) : SameClock s (restart s).state := by
  unfold restart
  split
  · exact sameClock_settle (sameClock_restartRunning s)
  · exact ⟨rfl, rfl⟩

/-- Every command but a reset leaves time counter and queue alone. -/
theorem sameClock_exec (c : Instr) (hreset : ∀ cause, c ≠ .reset cause) (hnext : exec c s = .next t) : SameClock s t := by
  cases c with
  | reset cause => exact absurd rfl (hreset cause)
  | resetEnd => exact sameClock_taken (execResetEnd_next hnext) ⟨rfl, rfl⟩
  | configOctetRead octet => exact sameClock_arbitrated (execConfigOctetRead_next octet hnext) (sameClock_octetRead octet s)
  | noMemory => exact sameClock_taken (execNoMemory_next hnext) ⟨rfl, rfl⟩
  | burstSync => exact sameClock_taken (execBurstSync_next hnext) (by simp [SameClock])
  | burstReceived octets =>
    rcases execBurstReceived_next hnext with ⟨stamp, -, -, rfl⟩ | ⟨-, rfl⟩
    · exact sameClock_settle (by simp [SameClock])
    · exact ⟨rfl, rfl⟩
  | shortBurst => exact sameClock_taken (execShortBurst_next hnext) ⟨rfl, rfl⟩
  | levelSample level => exact sameClock_taken (execLevelSample_next level hnext) ⟨rfl, rfl⟩
  | paceTimerExpiry => exact sameClock_arbitrated (execPaceTimerExpiry_next hnext) ⟨rfl, rfl⟩
  | gapComplete => exact sameClock_arbitrated (execGapComplete_next hnext) (by simp [SameClock])
  | slotComplete => exact sameClock_arbitrated (execSlotComplete_next hnext) (by simp [SameClock])
  | onAirCompletion => exact sameClock_arbitrated (execOnAirCompletion_next hnext) (by simp [SameClock])
  | forceTimerExpiry => exact sameClock_arbitrated (execForceTimerExpiry_next hnext) (by simp [SameClock])
  | readbackWaitExpiry slot => exact sameClock_arbitrated (execReadbackWaitExpiry_next slot hnext) (by simp [SameClock])
  | agingTimerExpiry =>
    exact sameClock_taken (execAgingTimerExpiry_next hnext)
      (by simp [SameClock, ageContexts_frame { s with asu.agingMs := s.asu.agingMs - 100 }])
  | silenceTimerExpiry => exact sameClock_taken (execSilenceTimerExpiry_next hnext) (by simp [SameClock])
  | presenceTimerExpiry => exact sameClock_arbitrated (execPresenceTimerExpiry_next hnext) (by simp [SameClock])
  | offerTimerExpiry => exact sameClock_taken (execOfferTimerExpiry_next hnext) (by simp [SameClock])
  | holdExpiry => exact sameClock_taken (execHoldExpiry_next hnext) ⟨rfl, rfl⟩
  | emergencyKeyEdge =>
    rcases execEmergencyKeyEdge_next hnext with ⟨-, rfl⟩ | ⟨-, -, rfl⟩ | ⟨-, -, rfl⟩
    · exact ⟨rfl, rfl⟩
    · exact ⟨rfl, rfl⟩
    · exact sameClock_settle (by simp [SameClock])
  | emergencyKeyRelease =>
    rcases execEmergencyKeyRelease_next hnext with ⟨-, rfl⟩ | ⟨-, rfl⟩
    · exact ⟨rfl, rfl⟩
    · exact ⟨rfl, rfl⟩
  | cabStopTransition active =>
    rcases execCabStopTransition_next hnext with ⟨-, rfl⟩ | ⟨-, -, rfl⟩ | ⟨-, -, rfl⟩
    · exact ⟨rfl, rfl⟩
    · exact ⟨rfl, rfl⟩
    · simp [SameClock]
  | selectActive =>
    rcases execSelectActive_next hnext with ⟨-, rfl⟩ | ⟨-, rfl⟩
    · exact ⟨rfl, rfl⟩
    · exact ⟨rfl, rfl⟩
  | selectInactive =>
    rcases execSelectInactive_next hnext with ⟨-, rfl⟩ | ⟨-, rfl⟩
    · exact ⟨rfl, rfl⟩
    · exact ⟨rfl, rfl⟩
  | badCommand code f =>
    rcases execBadCommand_next hnext with ⟨-, rfl⟩ | ⟨-, rfl⟩
    · exact ⟨rfl, rfl⟩
    · exact ⟨rfl, rfl⟩
  | readStatus f => exact sameClock_answerFrame ⟨rfl, rfl⟩ hnext
  | submitOrder f => exact sameClock_answerFrame (sameClock_submitOrder _ s) hnext
  | cancelOrder f => exact sameClock_answerFrame (sameClock_cancelInSlot _ s) hnext
  | takeCall f => exact sameClock_answerFrame (sameClock_takeCall s) hnext
  | releaseCall f => exact sameClock_answerFrame (sameClock_releaseCall _ s) hnext
  | takeException f => exact sameClock_answerFrame (sameClock_leaves (takeException_leaves s) ⟨rfl, rfl⟩) hnext
  | takeResult f => exact sameClock_answerFrame (sameClock_leaves (takeResult_leaves s) (by simp [SameClock])) hnext
  | readPeers f => exact sameClock_answerFrame ⟨rfl, rfl⟩ hnext
  | sendAllstop f => exact sameClock_answerFrame (sameClock_sendAllstop _ s) hnext
  | stopRequest f => exact sameClock_answerFrame (sameClock_setTerminal true s) hnext
  | clearTerminalStop f => exact sameClock_answerFrame (sameClock_setTerminal false s) hnext
  | joinTeam f =>
    exact sameClock_answerFrame (sameClock_leaves (joinTeam_leaves _ s) (sameClock_arbitrate (sameClock_joined _ s))) hnext
  | leaveTeam f =>
    exact sameClock_answerFrame (sameClock_leaves (leaveTeam_leaves s) (sameClock_arbitrate (by simp [SameClock]))) hnext
  | narrowRange f => exact sameClock_answerFrame (sameClock_leaves (narrowRange_leaves _ _ s).1 ⟨rfl, rfl⟩) hnext
  | readCounts f => exact sameClock_answerFrame ⟨rfl, rfl⟩ hnext
  | readAndClearCounts f => exact sameClock_answerFrame ⟨rfl, rfl⟩ hnext
  | setMask f => exact sameClock_answerFrame (sameClock_leaves (setMask_leaves _ s) ⟨rfl, rfl⟩) hnext
  | restart f => exact sameClock_answerFrame (sameClock_restart s) hnext

theorem pending_reset {cause : ResetCause} (hnext : exec (.reset cause) s = .next t) : t.pending = s.pending := by
  rcases execReset_next cause hnext with ⟨-, rfl⟩ | ⟨-, rfl⟩
  · rfl
  · rfl

/-! ### Events out of their place (log 3) -/

theorem loading_iff : loading s = true ↔ s.cfl.part = .configuring ∧ s.cfl.resetHeld = false := by simp [loading]

theorem running_iff : running s = true ↔ s.cfl.part = .running := decide_eq_true_iff

theorem paceDue_iff : paceDue s = true ↔ s.cfl.part = .running ∧ 200 ≤ s.cau.paceSamples := by simp [paceDue, running]

theorem gapDue_iff : gapDue s = true ↔ s.cfl.part = .running ∧ s.cau.access = .gap ∧ 8 ≤ s.cau.gapCount := by simp [gapDue, running]

theorem slotDue_iff : slotDue s = true ↔ s.cfl.part = .running ∧ s.cau.access = .backoff ∧ 4 ≤ s.cau.slotCount := by
  simp [slotDue, running]

theorem onAirDue_iff : onAirDue s = true ↔ s.cfl.part = .running ∧ s.cau.access = .onAir ∧ 60 ≤ s.cau.onAirSamples := by
  simp [onAirDue, running]

theorem waitDue_iff {slot : Nat} : waitDue slot s = true ↔
    s.cfl.part = .running ∧ ∃ o, orderAt slot s = some o ∧ o.state = .awaitReadback ∧ o.wait = some 0 := by
  cases ho : orderAt slot s with
  | none => simp [waitDue, ho]
  | some o => simp [waitDue, ho, running]

theorem agingDue_iff : agingDue s = true ↔ s.cfl.part = .running ∧ 100 ≤ s.asu.agingMs := by simp [agingDue, running]

theorem silenceDue_iff : silenceDue s = true ↔ s.cfl.part = .running ∧ 100 ≤ s.tmu.silenceMs := by simp [silenceDue, running]

theorem presenceDue_iff : presenceDue s = true ↔ s.cfl.part = .running ∧ 100 ≤ s.tmu.presenceMs := by simp [presenceDue, running]

theorem forceDue_iff : forceDue s = true ↔ s.cfl.part = .running ∧ ∃ st, s.cau.staging = some st ∧ st.force = .running 0 := by
  cases hst : s.cau.staging with
  | none => simp [forceDue, hst]
  | some st => simp [forceDue, hst, running]

theorem offerDue_iff : offerDue s = true ↔ s.cfl.part = .running ∧
    ∃ holder offered stamp, s.tmu.control = .offerPending holder offered stamp ∧ 4000 ≤ (s.time - stamp).toNat := by
  cases hc : s.tmu.control <;> simp [offerDue, hc, running]

theorem holdDue_iff : holdDue s = true ↔ s.cfl.part = .running ∧ s.stu.hold = true ∧
    ∃ stamp, s.stu.lastAllstop = some stamp ∧ 5000 ≤ (s.time - stamp).toNat := by
  cases hl : s.stu.lastAllstop <;> simp [holdDue, hl, running, and_assoc]

theorem exec_burstReceived_outOfPlace (octets : List Byte) (h : s.cfl.part ≠ .running ∨ s.rxc.reception = none) :
    exec (.burstReceived octets) s = .next s := by
  obtain ⟨t, ht⟩ := exec_exists_next (.burstReceived octets) s
  rw [ht]
  rcases execBurstReceived_next ht with ⟨stamp, hr, hreception, -⟩ | ⟨-, rfl⟩
  · rcases h with h | h
    · exact absurd (running_iff.mp hr) h
    · cases hreception.symm.trans h
  · rfl

theorem exec_shortBurst_outOfPlace (h : s.cfl.part ≠ .running ∨ s.rxc.reception = none) : exec .shortBurst s = .next s := by
  refine if_neg ?_
  rintro ⟨hr, hreception⟩
  rcases h with h | h
  · exact h (running_iff.mp hr)
  · simp [h] at hreception

theorem exec_commandOf (c : PortCommand) (f : Frame) : ∃ own, ∀ s, exec (commandOf c f) s = answerFrame c f own s := by
  cases c <;> exact ⟨_, fun _ => rfl⟩

end

/-- Settles O48. -/
theorem everyCommandEndsAndOutOfPlaceEventsChangeNothing : Obligations.EveryCommandEndsAndOutOfPlaceEventsChangeNothing := by
  refine ⟨fun c s => ?_, fun octet octets level slot c code f s => ?_⟩
  · obtain ⟨t, ht⟩ := exec_exists_next c s
    refine ⟨t, ht, ?_, fun hreset => (sameClock_exec c hreset ht).1⟩
    by_cases hreset : ∃ cause, c = .reset cause
    · obtain ⟨cause, rfl⟩ := hreset
      exact pending_reset ht
    · exact (sameClock_exec c (fun cause heq => hreset ⟨cause, heq⟩) ht).2
  · have hports : s.tpt.port ≠ .frame → exec (commandOf c f) s = .next s := fun h => by
      obtain ⟨own, hown⟩ := exec_commandOf c f
      exact (hown s).trans (if_neg h)
    refine ⟨fun h => if_neg h, fun h => ⟨if_neg (mt loading_iff.mp h), if_neg (mt loading_iff.mp h)⟩, fun h => if_neg ?_,
      fun h => ⟨exec_burstReceived_outOfPlace octets h, exec_shortBurst_outOfPlace h⟩, fun h => if_neg ?_, fun h => if_neg ?_,
      fun h => if_neg ?_, fun h => if_neg ?_, fun h => if_neg ?_, fun h => if_neg ?_, fun h => if_neg ?_, fun h => if_neg ?_,
      fun h => if_neg ?_, fun h => if_neg ?_, fun h => if_neg ?_, fun h => if_neg ?_, fun h => if_pos h, fun h => if_neg (by simp [h]),
      if_pos rfl, fun h => if_neg h, fun h => if_pos h, fun h => ⟨hports h, if_neg h⟩⟩
    · rw [running_iff]; tauto
    · rw [running_iff]; rintro ⟨hr, hw⟩; simp [hr, hw] at h
    · rw [paceDue_iff]; grind
    · rw [gapDue_iff]; grind
    · rw [slotDue_iff]; grind
    · rw [onAirDue_iff]; grind
    · rw [waitDue_iff]; grind
    · rw [agingDue_iff]; grind
    · rw [silenceDue_iff]; grind
    · rw [presenceDue_iff]; grind
    · rw [forceDue_iff]; grind
    · rw [offerDue_iff]; grind
    · rw [holdDue_iff]; grind

end Sys2Proof.Machine
end

section
/-! PROOF. Two timers that end a pending offer and the release hold (O43), the interrupt mask and the neighbour range (O39), and the
port's framing (O40). -/

namespace Sys2Proof.Machine

section

variable {s t : State} {c : PortCommand} {f : Frame}

/-! ### Offer and hold -/

/-- Settles O43. -/
theorem offersLapseAndHoldsEnd : Obligations.OffersLapseAndHoldsEnd := by
  refine fun s hrun => ⟨fun holder offered stamp hcontrol => ?_, fun stamp hhold hstamp => ?_⟩
  · have hdue : offerDue s = true ↔ 4000 ≤ (s.time - stamp).toNat := by simp [offerDue_iff, hrun, hcontrol]
    have hlapsed : offerLapsed s = { s with tmu.control := .held holder } := by simp only [offerLapsed, hcontrol]
    show (if offerDue s = true then taken (offerLapsed s) else notTaken s) = _
    rw [hlapsed]
    simp only [hdue]
    split <;> rfl
  · have hdue : holdDue s = true ↔ 5000 ≤ (s.time - stamp).toNat := by simp [holdDue_iff, hrun, hhold, hstamp]
    show (if holdDue s = true then taken { s with stu.hold := false } else notTaken s) = _
    simp only [hdue]
    split <;> rfl

/-! ### Mask -/

/-- A command other than READ STATUS and RESTART passes the tests in RUNNING only (R145). -/
theorem running_of_framePasses (h : FramePasses c f s) (hstatus : c ≠ .readStatus) (hrestart : c ≠ .restart) :
    s.cfl.part = .running := by
  obtain ⟨-, -, haccepted, -⟩ := h
  cases hp : s.cfl.part with
  | running => rfl
  | halted => simp [hp, PortCommand.acceptedIn, hstatus, hrestart] at haccepted
  | configuring => simp [hp, PortCommand.acceptedIn, hstatus] at haccepted

theorem upperBits_eq_zero_iff (m : Byte) : m.extractLsb' 5 3 = 0 ↔ m.toNat < 32 := by
  rw [← BitVec.toNat_inj]
  have := m.isLt
  simp only [BitVec.extractLsb'_toNat, Nat.shiftRight_eq_div_pow, BitVec.ofNat_eq_ofNat, BitVec.toNat_ofNat]
  omega

theorem setMask_upperBits {m : Byte} (h : 32 ≤ m.toNat) (s : State) : setMask m s = refuse .badRange s :=
  if_neg (by rw [upperBits_eq_zero_iff]; omega)

theorem setMask_fiveBits {m : Byte} (h : m.toNat < 32) (s : State) : setMask m s = accept [] { s with tpt.mask := Mask.ofByte m } :=
  if_pos ((upperBits_eq_zero_iff m).mpr h)

/-! ### Range -/

theorem narrowRefusal_badRange {low high : Team} (hrun : s.cfl.part = .running)
    (h : high.toNat < low.toNat ∨ low = 0 ∨ 250 < high.toNat) : narrowRefusal low high s = some .badRange := by
  have hnot : ¬ (low.toNat ≤ high.toNat ∧ 1 ≤ low.toNat ∧ high.toNat ≤ 250) := by
    rcases h with h | rfl | h
    · omega
    · simp
    · omega
  simp only [narrowRefusal, running, hrun, decide_true, Bool.not_true, Bool.false_eq_true, if_false, if_pos hnot]

/-- Past the test of the pair itself, the tight flag and the range in force decide (R153). -/
theorem narrowRefusal_of_inRange {low high curLow curHigh : Team} (hrun : s.cfl.part = .running) (horder : low.toNat ≤ high.toNat)
    (hlow : low ≠ 0) (hhigh : high.toNat ≤ 250) (hrange : s.tpt.range = some (curLow, curHigh)) :
    narrowRefusal low high s = if s.config.tight = true ∨ low.toNat < curLow.toNat ∨ curHigh.toNat < high.toNat then some .locked
      else none := by
  have hpos : 1 ≤ low.toNat := by
    rw [Nat.one_le_iff_ne_zero]
    exact fun hz => hlow (BitVec.eq_of_toNat_eq hz)
  simp only [narrowRefusal, running, hrun, decide_true, Bool.not_true, Bool.false_eq_true, if_false, horder, hpos, hhigh, and_self,
    not_true_eq_false, hrange]
  cases s.config.tight with
  | true => simp
  | false =>
    simp only [Bool.false_eq_true, if_false, false_or]
    by_cases hwithin : curLow.toNat ≤ low.toNat ∧ high.toNat ≤ curHigh.toNat
    · rw [if_pos hwithin, if_neg (by omega)]
    · rw [if_neg hwithin, if_pos (by omega)]

theorem range_answerFrame {own : State → PortResult} (hown : (own s).state.tpt.range = s.tpt.range)
    (hnext : answerFrame c f own s = .next t) : t.tpt.range = s.tpt.range :=
  answerFrame_keeps (P := fun u => u.tpt.range = s.tpt.range) (fun _ _ _ _ hu => hu) rfl hown hnext

theorem range_leaves {r : PortResult} {effect : State} (h : leaves r s effect) (heffect : effect.tpt.range = s.tpt.range) :
    r.state.tpt.range = s.tpt.range := by
  rcases h with ⟨hstate, -, -⟩ | ⟨-, hstate⟩
  · rw [hstate]
  · rw [hstate]
    exact heffect

theorem range_restart (hrun : s.cfl.part = .running) : (restart s).state.tpt.range = s.tpt.range := by
  have hrestarted : (restartRunning s).tpt.range = s.tpt.range := by
    unfold restartRunning
    dsimp only
    split <;> simp
  rw [restart, if_pos (running_iff.mpr hrun)]
  exact (by simp [hrestarted] : (arbitrate (restartRunning s)).tpt.range = s.tpt.range)

/-- Settles O39. -/
theorem maskAndRangeAreSet : Obligations.MaskAndRangeAreSet := by
  refine ⟨fun f s m => ⟨fun h => answerFrame_outsideRunning _ h (by decide) (by decide), fun h hm => ⟨fun hupper => ?_, fun hfive => ?_⟩⟩,
    fun f s low high curLow curHigh => ⟨fun h => answerFrame_outsideRunning _ h (by decide) (by decide),
      fun h hlow hhigh hrange => ⟨fun hbad => ?_, fun horder hlow0 hhigh250 => ⟨fun hlocked => ?_, fun htight hfrom hto => ?_⟩⟩,
      fun c t hc hnext => ?_⟩⟩
  · exact answerFrame_refused h (setMask_upperBits (hm ▸ hupper) s)
  · subst hm
    exact answerFrame_accepted h (setMask_fiveBits hfive s)
  all_goals have hrun := fun h => running_of_framePasses (c := .narrowRange) (f := f) (s := s) h (by decide) (by decide)
  · subst hlow hhigh
    exact answerFrame_refused h (by rw [narrowRange, narrowRefusal_badRange (hrun h) hbad])
  · subst hlow hhigh
    exact answerFrame_refused h (by
      rw [narrowRange, narrowRefusal_of_inRange (hrun h) horder hlow0 hhigh250 hrange, if_pos hlocked])
  · subst hlow hhigh
    exact answerFrame_accepted h (by
      rw [narrowRange, narrowRefusal_of_inRange (hrun h) horder hlow0 hhigh250 hrange, if_neg (by simp [htight]; omega)])
  · rcases hc with ⟨rfl, hpart⟩ | rfl | rfl
    · exact range_answerFrame (range_restart hpart) hnext
    · exact range_answerFrame (range_leaves (joinTeam_leaves _ s) (by simp [joined])) hnext
    · exact range_answerFrame (range_leaves (leaveTeam_leaves s) (by simp)) hnext

/-! ### Frames -/

theorem frameRefusal_badCheck (h : f.check ≠ digest (c.code :: octet f.params.length :: f.params)) (part : PartState) :
    frameRefusal c f part = some .badFrame := by
  simp [frameRefusal, frameCheckGood, h]

theorem frameRefusal_notAccepted {part : PartState} (hcheck : f.check = digest (c.code :: octet f.params.length :: f.params))
    (h : c.acceptedIn part = false) : frameRefusal c f part = some .notRunning := by
  simp [frameRefusal, frameCheckGood, hcheck, h]

theorem frameRefusal_badLength {part : PartState} (hcheck : f.check = digest (c.code :: octet f.params.length :: f.params))
    (haccepted : c.acceptedIn part = true) (h : f.params.length ≠ c.requiredLength f.params) :
    frameRefusal c f part = some .badFrame := by
  simp [frameRefusal, frameCheckGood, hcheck, haccepted, h]

theorem answerFrame_turnedDown {own : State → PortResult} {answer : ReplyCode} (hport : s.tpt.port = .frame)
    (h : frameRefusal c f s.cfl.part = some answer) : answerFrame c f own s = .next (turnedDown c answer s) := by
  rw [answerFrame, if_pos hport, h]
  rfl

theorem acceptedIn_iff (c : PortCommand) (part : PartState) : c.acceptedIn part = true ↔
    part = .running ∨ part = .halted ∧ (c = .readStatus ∨ c = .restart) ∨ part = .configuring ∧ c = .readStatus := by
  cases part <;> simp [PortCommand.acceptedIn]

theorem requiredLength_eq (c : PortCommand) (params : List Byte) :
    c.requiredLength params = if c = .submitOrder then 5 + (octetAt params 4).toNat else if c = .narrowRange then 2
      else if c = .joinTeam ∨ c = .sendAllstop ∨ c = .setMask ∨ c = .cancelOrder ∨ c = .releaseCall then 1 else 0 := by
  cases c <;> rfl

theorem exec_badCommand (code : Byte) (hport : s.tpt.port = .frame) :
    exec (.badCommand code f) s = .next (withReply code (if frameCheckGood code f then .badCommand else .badFrame) [] s) := if_pos hport

end

/-- Settles O40. -/
theorem framesAreTestedAndFramed : Obligations.FramesAreTestedAndFramed := by
  refine ⟨fun f s hport => ⟨fun c => ?_, fun code _ => ⟨fun h => ?_, fun h => ?_⟩⟩,
    fun s => ⟨fun _ => ⟨rfl, rfl⟩, fun cause h => ⟨_, if_neg h, rfl⟩, fun code answer data => ⟨_, rfl, rfl, fun _ => rfl⟩,
      fun h => if_pos h, fun h => if_neg h, fun _ _ _ => rfl⟩⟩
  · obtain ⟨own, hown⟩ := exec_commandOf c f
    simp only [hown, ← requiredLength_eq, ← acceptedIn_iff]
    refine ⟨fun h => ?_, fun hcheck => ⟨fun h => ?_, fun haccepted h => ?_⟩⟩
    · exact answerFrame_turnedDown hport (frameRefusal_badCheck h _)
    · exact answerFrame_turnedDown hport (frameRefusal_notAccepted hcheck (by simpa using h))
    · exact answerFrame_turnedDown hport (frameRefusal_badLength hcheck haccepted h)
  · simp only [exec_badCommand code hport, frameCheckGood, h, decide_false, Bool.false_eq_true, if_false]
  · simp only [exec_badCommand code hport, frameCheckGood, h, decide_true, if_true]

end Sys2Proof.Machine
end

section
/-! PROOF. From the sources to the air: which class the arbiter stages (O25), how ALLSTOP requests meet (O28), and how a burst goes on
air (O21) and leaves it (O22). -/

namespace Sys2Proof.Machine

section

variable {s : State} {st : Staged}

/-! ### Onto the air (R37 to R39, R51) -/

/-- The burst that goes on air, before its source is told (R39, R10). -/
def burstKeyed (st : Staged) (s : State) : State :=
  { s with
    rxc.reception := none
    cau.staging := none
    cau.onAir := some { burst := st.burst, source := st.source }
    cau.onAirSamples := 0
    cau.access := .onAir
    cau.gapCount := 0
    cau.slotCount := 0 }

theorem goOnAir_eq_leaveSource_burstKeyed (hst : s.cau.staging = some st) : goOnAir s = leaveSource st.source (burstKeyed st s) := by
  simp only [goOnAir, hst, burstKeyed]

theorem exec_gapComplete_of_due (hrun : s.cfl.part = .running) (haccess : s.cau.access = .gap) (hcount : 8 ≤ s.cau.gapCount) :
    exec .gapComplete s = .next (settle (gapCompleted s)) := if_pos (gapDue_iff.mpr ⟨hrun, haccess, hcount⟩)

theorem exec_slotComplete_of_due (hrun : s.cfl.part = .running) (haccess : s.cau.access = .backoff) (hcount : 4 ≤ s.cau.slotCount) :
    exec .slotComplete s = .next (settle (slotCompleted s)) := if_pos (slotDue_iff.mpr ⟨hrun, haccess, hcount⟩)

theorem exec_forceTimerExpiry_of_due (hrun : s.cfl.part = .running) (hst : s.cau.staging = some st) (hforce : st.force = .running 0) :
    exec .forceTimerExpiry s = .next (settle (forceExpired s)) := if_pos (forceDue_iff.mpr ⟨hrun, st, hst, hforce⟩)

theorem slotCompleted_of_staging (hst : s.cau.staging = some st) :
    ∀ counted, counted = { s with cau.staging := some { st with backoff := st.backoff - 1 }, cau.slotCount := 0 } →
      slotCompleted s = if st.backoff ≤ 1 then goOnAir counted else counted := by
  rintro _ rfl
  have hzero : st.backoff - 1 = 0 ↔ st.backoff ≤ 1 := by omega
  simp only [slotCompleted, stagedBackoff, hst, Option.map_some, Option.getD_some, hzero]

/-- Settles O21. -/
theorem burstsGoOnAir : Obligations.BurstsGoOnAir := by
  refine ⟨fun st s hrun hst => ⟨fun haccess hcount => ?_, fun haccess hcount counted hcounted => ?_⟩, fun st s hst keyedState hkeyed => ?_,
    fun st s hrun hst => ⟨fun hforce => ⟨fun haccess => ?_, fun haccess => ?_⟩, fun n hforce => if_neg ?_⟩⟩
  · rw [exec_gapComplete_of_due hrun haccess hcount, gapCompleted, stagedBackoff, hst, Option.map_some, Option.getD_some]
  · rw [exec_slotComplete_of_due hrun haccess hcount, slotCompleted_of_staging hst counted hcounted]
  · subst hkeyed
    refine ⟨fun team h => ?_, fun h => ?_, fun flag h => ?_, fun slot index o h ho => ?_⟩
    all_goals rw [goOnAir_eq_leaveSource_burstKeyed hst, burstKeyed, h]
    · rfl
    · rfl
    · rfl
    · exact setPlace_of_orderAt .onAir ho
  · rw [exec_forceTimerExpiry_of_due hrun hst hforce, forceExpired, if_neg haccess]
  · rw [exec_forceTimerExpiry_of_due hrun hst hforce, forceExpired, if_pos haccess, hst, Option.map_some]
  · simp [forceDue_iff, hst, hforce]

/-! ### Off the air (R40) -/

theorem leaveOnAir_expired (hst : s.cau.staging = some st) (h : st.force = .expired) : leaveOnAir s = goOnAir s := by
  simp only [leaveOnAir, hst, if_pos h]

theorem leaveOnAir_staged (hst : s.cau.staging = some st) (h : st.force ≠ .expired) :
    leaveOnAir s = { s with cau.access := .gap, cau.gapCount := 0, cau.slotCount := 0, cau.onAirSamples := 0 } := by
  simp only [leaveOnAir, hst, if_neg h]

theorem leaveOnAir_unstaged (hst : s.cau.staging = none) :
    leaveOnAir s = { s with cau.access := .idle, cau.gapCount := 0, cau.slotCount := 0, cau.onAirSamples := 0 } := by
  simp only [leaveOnAir, hst]

theorem clearTeam_presenceCount (s : State) : (clearTeam s).tmu.presenceCount = s.tmu.presenceCount := by
  have hunheld (u : State) : (makeUnheld u).tmu.presenceCount = u.tmu.presenceCount := by
    unfold makeUnheld
    split <;> simp
  simp only [clearTeam, emptyReadbacks_frame, clearContexts, returnBuffers, hunheld]

/-- With the presence count at 0 already, the completed leave writes attachment and pending leave only. -/
theorem completeLeave_of_countZero (h : s.tmu.presenceCount = 0) :
    completeLeave s = { clearTeam s with tmu.leavePending := false, tmu.attached := false } := by
  have hcleared : (clearTeam s).tmu.presenceCount = 0 := by rw [clearTeam_presenceCount, h]
  rw [completeLeave, ← hcleared]

/-- Settles O22. -/
theorem onAirCompletionReportsThenLeaves : Obligations.OnAirCompletionReportsThenLeaves := by
  rintro b s hrun haccess hsamples hb silent rfl
  have hexec := exec_onAirCompletion_of_due hrun haccess hsamples hb
  refine ⟨fun h => ?_, fun h => ?_, fun h => ?_,
    fun t => ⟨fun st hst => leaveOnAir_expired hst, fun st hst => leaveOnAir_staged hst, leaveOnAir_unstaged⟩⟩
  · rcases h with h | h
    · rw [hexec, h]
      rfl
    · rw [hexec, h]
      rfl
  · rw [hexec, h]
    rfl
  · rw [hexec, h, ← completeLeave_of_countZero rfl]
    rfl

/-! ### The arbiter (R45, R47) -/

theorem arbitrate_staged (h : s.cau.staging ≠ none) : arbitrate s = s := by
  rw [arbitrate, if_neg (by simp [h])]

theorem arbitrate_of_ready {source : Source} (hrun : s.cfl.part = .running) (hst : s.cau.staging = none)
    (h : readyClass s = some source) : arbitrate s = stage source (noteChosen source s) := by
  simp [arbitrate, running, hrun, hst, h]

theorem arbitrate_of_none_ready (hrun : s.cfl.part = .running) (hst : s.cau.staging = none) (h : readyClass s = none) :
    arbitrate s = s := by
  simp [arbitrate, running, hrun, hst, h]

theorem sendingOrder_of_unique {slot : Nat} {o : Order} (hunique : ((inUse s.odu.ool).filter isSending).length ≤ 1)
    (ho : orderAt slot s = some o) (hstate : o.state = .sending) : sendingOrder s = some (slot, o) := by
  have hsending : isSending o = true := decide_eq_true hstate
  exact findSlot_of_unique ho hsending
    fun j b hb hsends => filter_inUse_length_le_one_iff.mp hunique j slot b o hb ho hsends hsending

theorem sendingOrder_of_none_sending (h : ∀ o ∈ inUse s.odu.ool, o.state ≠ .sending) : sendingOrder s = none := by
  cases hfound : sendingOrder s with
  | none => rfl
  | some found =>
    obtain ⟨ho, hstate⟩ := sendingOrder_some hfound
    exact absurd hstate (h _ (mem_inUse_of_slotAt ho))

/-- Settles O25. -/
theorem arbiterFillsFromTheHighestClass : Obligations.ArbiterFillsFromTheHighestClass := by
  refine fun s => ⟨fun hrun hst => ⟨fun team hteam => ?_, fun hnoAllstop => ⟨fun hrbq => ?_, fun hrbq => ⟨fun flag hflag => ?_,
    fun hnoPresence => ⟨fun hunique slot o ho hstate => ?_, fun hnone => ?_⟩⟩⟩⟩, fun h => ?_⟩
  · exact arbitrate_of_ready hrun hst (by simp only [readyClass, hteam])
  · exact arbitrate_of_ready hrun hst (by simp [readyClass, hnoAllstop, hrbq])
  · exact arbitrate_of_ready hrun hst (by simp [readyClass, hnoAllstop, hrbq, hflag])
  · have hclass : readyClass s = if o.place = .none ∧ 256 ≤ s.cau.credit ∧ s.cau.gateOpen = true then some (.fragment slot o.next)
        else none := by
      simp only [readyClass, hnoAllstop, hrbq, List.isEmpty_nil, if_true, hnoPresence, readyFragment,
        sendingOrder_of_unique hunique ho hstate]
      split <;> rfl
    split
    · rename_i hready
      exact arbitrate_of_ready hrun hst (by rw [hclass, if_pos hready])
    · rename_i hready
      exact arbitrate_of_none_ready hrun hst (by rw [hclass, if_neg hready])
  · refine arbitrate_of_none_ready hrun hst ?_
    simp [readyClass, hnoAllstop, hrbq, hnoPresence, readyFragment, sendingOrder_of_none_sending hnone]
  · rcases h with h | h
    · exact arbitrate_of_not_running h
    · exact arbitrate_staged h

/-! ### ALLSTOP requests (R48, R49) -/

/-- Whether the displacing ALLSTOP keys at once is read off the access state, which its staging leaves in BACKOFF, and its draw. -/
theorem displace_eq (old : Staged) (team : Team) (s : State) :
    displace old team s = if (giveBack old.source s).cau.access = .backoff ∧
        (stage (.allstop team) (giveBack old.source s)).cau.staging.map Staged.backoff = some 0 then
      goOnAir (stage (.allstop team) (giveBack old.source s)) else stage (.allstop team) (giveBack old.source s) := by
  generalize hback : giveBack old.source s = back
  obtain ⟨force, hst, -⟩ := stage_staging (.allstop team) back
  have haccess : (stage (.allstop team) back).cau.access = .backoff ↔ back.cau.access = .backoff := by
    rw [stage_access]
    cases back.cau.access <;> decide
  simp only [displace, hback, hst, haccess, Option.map_some, Option.some.injEq]

theorem requestAllstop_merge {held : Team} (team : Team) (hnone : s.cau.allstopRequest = none) (hst : s.cau.staging = some st)
    (hsource : st.source = .allstop held) :
    requestAllstop team s = if held = team then s else { s with cau.staging := some (retag st (mergeTeams held team)) } := by
  simp only [requestAllstop, hnone, hst, hsource]

theorem requestAllstop_displaces (team : Team) (hnone : s.cau.allstopRequest = none) (hst : s.cau.staging = some st)
    (hsource : ∀ held, st.source ≠ .allstop held) : requestAllstop team s = displace st team s := by
  unfold requestAllstop
  rw [hnone, hst]
  dsimp only
  split
  · rename_i held hallstop
    exact absurd hallstop (hsource held)
  · rfl

end

/-- Settles O28. -/
theorem allstopRequestsMergeOrDisplace : Obligations.AllstopRequestsMergeOrDisplace := by
  refine fun team s => ⟨fun held hheld => ?_, fun hnone => ⟨fun hst => ?_, fun st held hst hsource => ⟨fun hsame => ?_, fun hother => ?_⟩,
    fun st back hst hback => ?_⟩⟩
  · simp only [requestAllstop, hheld, mergeTeams]
    split
    · rename_i hsame
      rw [hsame]
    · rfl
  · simp only [requestAllstop, hnone, hst]
  · rw [requestAllstop_merge team hnone hst hsource, if_pos hsame]
  · rw [requestAllstop_merge team hnone hst hsource, if_neg hother, mergeTeams, if_neg hother]
    rfl
  · have hgiven : (∀ held, st.source ≠ .allstop held) ∧ giveBack st.source s = back ∧ back.cau.access = s.cau.access := by
      rcases hback with ⟨hsource | ⟨flag, hsource⟩, rfl⟩ | ⟨slot, index, o, hsource, ho, rfl⟩
      · simp [hsource, giveBack]
      · simp [hsource, giveBack]
      · rw [hsource]
        exact ⟨by simp, setPlace_of_orderAt .none (s := refundCredit s) ho, rfl⟩
    obtain ⟨hsource, hgive, haccess⟩ := hgiven
    rw [requestAllstop_displaces team hnone hst hsource, displace_eq, hgive, haccess]

end Sys2Proof.Machine
end

section
/-! PROOF. The 100 ms timers: an aging expiry over the contexts in their order (O41), the silence of the peers and the presence
interval (O42). -/

namespace Sys2Proof.Machine

section

variable {s : State}

/-! ### One context after another (R70, R71) -/

theorem agingLimit_eq (c : Config) : agingLimit c =
    if c.agingCode = 0 then 3 else if c.agingCode = 1 then 5 else if c.agingCode = 2 then 10 else 20 := by
  unfold agingLimit
  generalize c.agingCode = code
  revert code
  decide

/-- What an aging expiry leaves in a context's slot. -/
def agedSlot (limit : Nat) (x : Option Context) : Option Context :=
  x.bind (fun c => if limit ≤ c.age + 1 then none else some { c with age := c.age + 1 })

/-- The calls that an aging expiry abandons, in context order. -/
def agedOut (limit : Nat) (contexts : List (Option Context)) : List Context :=
  (inUse contexts).filter (fun c => decide (limit ≤ c.age + 1))

def agedEntry (stamp : Stamp) (c : Context) : ExceptionEntry :=
  { code := .agedOut, sender := c.sender, callNumber := c.callNumber, index := c.next, stamp := stamp }

/-- The part with the contexts of `before` aged and those of `after` still to come. -/
def agedUpTo (before after : List (Option Context)) (s : State) : State :=
  { s with
    asu.contexts := before.map (agedSlot (agingLimit s.config)) ++ after
    asu.exq := (s.asu.exq ++ (agedOut (agingLimit s.config) before).map (agedEntry s.time)).take 16
    bpl.free := s.bpl.free ++ (agedOut (agingLimit s.config) before).flatMap Context.buffers
    tpt.flags.exqOverflow := s.tpt.flags.exqOverflow || decide (16 < s.asu.exq.length + (agedOut (agingLimit s.config) before).length) }

theorem agedUpTo_nil (h : s.asu.exq.length ≤ 16) : agedUpTo [] s.asu.contexts s = s := by
  simp [agedUpTo, agedOut, inUse, List.take_of_length_le h, Nat.not_lt.mpr h]

theorem agedOut_append (limit : Nat) (before : List (Option Context)) (x : Option Context) :
    agedOut limit (before ++ [x]) = agedOut limit before ++ agedOut limit [x] := by simp [agedOut, inUse]

theorem slotAt_append_cons {α : Type} (before after : List (Option α)) (x : Option α) :
    slotAt (before ++ x :: after) before.length = x := by simp [slotAt]

theorem set_append_cons {α : Type} (before after : List α) (x y : α) :
    (before ++ x :: after).set before.length y = before ++ y :: after := by simp

/-- The entry of an abandoned call joins an EXQ of at most 16, or the overflow is noted (R69). -/
theorem raiseException_agedUpTo (e : ExceptionEntry) (before after : List (Option Context)) :
    raiseException e (agedUpTo before after s) =
      { agedUpTo before after s with
        asu.exq := (s.asu.exq ++ (agedOut (agingLimit s.config) before).map (agedEntry s.time) ++ [e]).take 16
        tpt.flags.exqOverflow :=
          s.tpt.flags.exqOverflow || decide (16 < s.asu.exq.length + (agedOut (agingLimit s.config) before).length + 1) } := by
  set entries := s.asu.exq ++ (agedOut (agingLimit s.config) before).map (agedEntry s.time) with hentries
  have hlength : entries.length = s.asu.exq.length + (agedOut (agingLimit s.config) before).length := by simp [hentries]
  have hexq : (agedUpTo before after s).asu.exq = entries.take 16 := rfl
  by_cases hroom : entries.length < 16
  · rw [raiseException_room e (by rw [hexq, List.length_take]; omega), hexq, List.take_of_length_le (by omega : entries.length ≤ 16),
      List.take_of_length_le (by simp; omega : (entries ++ [e]).length ≤ 16)]
    simp only [agedUpTo, decide_eq_false (by omega : ¬ 16 < s.asu.exq.length + (agedOut (agingLimit s.config) before).length),
      decide_eq_false (by omega : ¬ 16 < s.asu.exq.length + (agedOut (agingLimit s.config) before).length + 1)]
  · rw [raiseException_full e (by rw [hexq, List.length_take]; omega), List.take_append_of_le_length (by omega), ← hexq,
      decide_eq_true (by omega : 16 < s.asu.exq.length + (agedOut (agingLimit s.config) before).length + 1), Bool.or_true]

theorem ageContext_agedUpTo (before after : List (Option Context)) (x : Option Context) :
    ageContext before.length (agedUpTo before (x :: after) s) = agedUpTo (before ++ [x]) after s := by
  have hslot : slotAt (agedUpTo before (x :: after) s).asu.contexts before.length = x := by
    rw [← List.length_map (agedSlot (agingLimit s.config))]
    exact slotAt_append_cons _ _ _
  have hset (y : Option Context) : (agedUpTo before (x :: after) s).asu.contexts.set before.length y =
      before.map (agedSlot (agingLimit s.config)) ++ y :: after := by
    rw [← List.length_map (agedSlot (agingLimit s.config))]
    exact set_append_cons _ _ _ _
  have hconfig : (agedUpTo before (x :: after) s).config = s.config := rfl
  rcases ageContext_cases before.length (agedUpTo before (x :: after) s) with ⟨hnone, hage⟩ | ⟨c, hc, ⟨hlimit, hage⟩ | ⟨hlimit, hage⟩⟩
  · have hx : x = none := hslot.symm.trans hnone
    subst hx
    rw [hage]
    simp [agedUpTo, agedOut, inUse, agedSlot]
  · have hx : x = some c := hslot.symm.trans hc
    subst hx
    rw [hconfig] at hlimit
    have hout : agedOut (agingLimit s.config) [some c] = [c] := by simp [agedOut, inUse, hlimit]
    have hgone : agedSlot (agingLimit s.config) (some c) = none := by simp [agedSlot, hlimit]
    rw [hage, raiseException_agedUpTo, abandon, vacate, returnBuffers]
    simp only [hset]
    simp only [agedUpTo, agedOut_append, hout, List.map_append, List.map_cons, List.map_nil, hgone, List.flatMap_append,
      List.flatMap_cons, List.flatMap_nil, List.append_assoc, List.cons_append, List.nil_append, List.append_nil, List.length_append,
      List.length_cons, List.length_nil, Nat.add_assoc]
    rfl
  · have hx : x = some c := hslot.symm.trans hc
    subst hx
    rw [hconfig] at hlimit
    have hout : agedOut (agingLimit s.config) [some c] = [] := by simp [agedOut, inUse, hlimit]
    have hstays : agedSlot (agingLimit s.config) (some c) = some { c with age := c.age + 1 } := by simp [agedSlot, Nat.not_le.mpr hlimit]
    rw [hage, setContext, hset]
    simp only [agedUpTo, agedOut_append, hout, List.map_append, List.map_cons, List.map_nil, hstays, List.append_assoc,
      List.cons_append, List.nil_append, List.append_nil]

theorem foldl_ageContext (after before : List (Option Context)) :
    (List.range' before.length after.length).foldl (fun s i => ageContext i s) (agedUpTo before after s) =
      agedUpTo (before ++ after) [] s := by
  induction after generalizing before with
  | nil => simp
  | cons x rest ih =>
    have hrest := ih (before ++ [x])
    rw [List.length_append, List.length_singleton] at hrest
    rw [List.length_cons, List.range'_succ, List.foldl_cons, ageContext_agedUpTo, hrest, List.append_assoc, List.singleton_append]

theorem ageContexts_eq (h : s.asu.exq.length ≤ 16) : ageContexts s = agedUpTo s.asu.contexts [] s := by
  have hfold := foldl_ageContext (s := s) s.asu.contexts []
  rwa [agedUpTo_nil h, List.nil_append, List.length_nil, ← List.range_eq_range'] at hfold

/-- Settles O41. -/
theorem agingAbandonsTheSilentCalls : Obligations.AgingAbandonsTheSilentCalls := by
  rintro s hrun hms hexq limit hlimit aged rfl
  obtain rfl : limit = agingLimit s.config := hlimit.trans (agingLimit_eq _).symm
  have hexec : exec .agingTimerExpiry s = .next (drivePins (ageContexts { s with asu.agingMs := s.asu.agingMs - 100 })) :=
    if_pos (agingDue_iff.mpr ⟨hrun, hms⟩)
  rw [hexec, ageContexts_eq (s := { s with asu.agingMs := s.asu.agingMs - 100 }) hexq]
  simp only [agedUpTo, List.append_nil]
  rfl

/-! ### Silence (R115, R123) -/

theorem supervisionLimit_eq (c : Config) : supervisionLimit c =
    ([6, 10, 15, 20, 30, 40, 60, 80] : List Nat).getD c.supervisionCode.toNat 0 := by
  unfold supervisionLimit
  generalize c.supervisionCode = code
  revert code
  decide

theorem presenceInterval_eq (c : Config) : presenceInterval c =
    ([2, 3, 5, 6, 10, 13, 20, 26] : List Nat).getD c.supervisionCode.toNat 0 := by
  unfold presenceInterval
  rw [supervisionLimit_eq]
  generalize c.supervisionCode = code
  revert code
  decide

theorem silentPeer_eq (c : Config) (p : Peer) : silentPeer c p =
    { p with
      silence := min 255 (p.silence + 1)
      link := if p.link = .lost ∨ supervisionLimit c ≤ min 255 (p.silence + 1) then .lost
        else if p.link = .active ∧ supervisionLimit c / 2 ≤ min 255 (p.silence + 1) then .fading else p.link } := by
  unfold silentPeer fadeLimit
  generalize min 255 (p.silence + 1) = silence
  cases hlink : p.link with
  | active => by_cases hfade : supervisionLimit c / 2 ≤ silence <;> simp [hfade]
  | fading => simp
  | lost => simp

theorem goesLost_eq (c : Config) (p : Peer) :
    goesLost c p = decide (p.link ≠ .lost ∧ supervisionLimit c ≤ min 255 (p.silence + 1)) := by
  rw [goesLost, silentPeer_eq]
  by_cases hlink : p.link = .lost
  · simp [hlink]
  · by_cases hlimit : supervisionLimit c ≤ min 255 (p.silence + 1)
    · simp [hlimit]
    · simp only [hlink, hlimit, or_self, if_false, and_false, decide_eq_decide]
      split <;> simp [hlink]

theorem putSupervision_eq (lost : Bool) (s : State) : (if lost = true then putSupervision s else s) =
    { s with
      stu.causes.supervision := s.stu.causes.supervision || (isLocomotive s && lost)
      tpt.flags.causesChanged := s.tpt.flags.causesChanged || (isLocomotive s && lost && !s.stu.causes.supervision) } := by
  cases lost with
  | false => simp
  | true =>
    cases hloc : isLocomotive s with
    | false => simp [putSupervision, setCauses_of_portable _ hloc]
    | true =>
      have hchange : decide ({ s.stu.causes with supervision := true } ≠ s.stu.causes) = !s.stu.causes.supervision := by
        cases s.stu.causes with
        | mk radioStop allstop supervision noHolder cab terminal => cases supervision <;> simp
      simp only [putSupervision, setCauses_of_locomotive _ hloc, hchange, if_true, Bool.and_true, Bool.true_and, Bool.or_true]

/-- An expiry that makes the holder's entry LOST (R123). -/
def losesHolder (s : State) : Bool := s.tmu.peers.any (fun p => goesLost s.config p && decide (s.tmu.control.holder = some p.station))

theorem losesHolder_eq (s : State) : losesHolder s = s.tmu.peers.any (fun p =>
    decide (s.tmu.control.holder = some p.station ∧ p.link ≠ .lost ∧ supervisionLimit s.config ≤ min 255 (p.silence + 1))) := by
  unfold losesHolder
  congr 1
  funext p
  rw [goesLost_eq, ← Bool.decide_and, decide_eq_decide]
  exact and_comm

theorem silenceExpired_eq (s : State) : silenceExpired s =
    { s with
      tmu.peers := s.tmu.peers.map (silentPeer s.config)
      stu.causes.supervision := s.stu.causes.supervision || (isLocomotive s && losesHolder s)
      tpt.flags.causesChanged := s.tpt.flags.causesChanged || (isLocomotive s && losesHolder s && !s.stu.causes.supervision) } :=
  putSupervision_eq (losesHolder s) { s with tmu.peers := s.tmu.peers.map (silentPeer s.config) }

/-! ### Presence (R116) -/

theorem presenceExpired_eq (s : State) : presenceExpired s =
    { s with
      tmu.presenceCount := if s.tmu.attached then min (presenceInterval s.config) (s.tmu.presenceCount + 1) else 0
      tmu.presenceRequest :=
        if s.tmu.attached = true ∧ presenceInterval s.config ≤ s.tmu.presenceCount + 1 ∧ s.tmu.leavePending = false ∧
          s.tmu.presenceRequest = none then some .normal else s.tmu.presenceRequest } := by
  have hreached : min (presenceInterval s.config) (s.tmu.presenceCount + 1) = presenceInterval s.config ↔
      presenceInterval s.config ≤ s.tmu.presenceCount + 1 := min_eq_left_iff
  cases hattached : s.tmu.attached with
  | false => simp [presenceExpired, hattached]
  | true =>
    simp only [presenceExpired, hattached, if_true, true_and]
    split
    · rename_i h
      rw [if_pos (h.imp_left hreached.mp)]
    · rename_i h
      rw [if_neg (mt (And.imp_left hreached.mpr) h)]

end

/-- Settles O42. -/
theorem silenceLosesPeersAndPresenceIsRequested : Obligations.SilenceLosesPeersAndPresenceIsRequested := by
  refine ⟨fun s hrun hms limit hlimit lost hlost => ?_, fun s hrun hms interval hinterval => ?_⟩
  · obtain rfl : limit = supervisionLimit s.config := hlimit.trans (supervisionLimit_eq _).symm
    have hexec : exec .silenceTimerExpiry s = .next (drivePins (silenceExpired { s with tmu.silenceMs := s.tmu.silenceMs - 100 })) :=
      if_pos (silenceDue_iff.mpr ⟨hrun, hms⟩)
    rw [hexec, silenceExpired_eq, losesHolder_eq, hlost, funext (silentPeer_eq _)]
    rfl
  · obtain rfl : interval = presenceInterval s.config := hinterval.trans (presenceInterval_eq _).symm
    have hexec : exec .presenceTimerExpiry s = .next (settle (presenceExpired { s with tmu.presenceMs := s.tmu.presenceMs - 100 })) :=
      if_pos (presenceDue_iff.mpr ⟨hrun, hms⟩)
    rw [hexec, presenceExpired_eq]
    rfl

end Sys2Proof.Machine
end

section
/-! PROOF. JOIN TEAM and LEAVE TEAM (O46), a RESTART in RUNNING (O47), and the reset state against every law (O59). -/

namespace Sys2Proof.Machine

section

variable {s : State}

/-! ### Withdrawals of what carries no fragment (R50) -/

theorem withdraw_meant {meant : Source → Bool} {st : Staged} (hst : s.cau.staging = some st) (hmeant : meant st.source = true)
    (hsource : isFragment st.source = false) : withdraw meant s = emptyStaging s := by
  simp only [withdraw, hst, hmeant, if_true]
  cases h : st.source with
  | fragment slot index => simp [h, isFragment] at hsource
  | _ => rfl

theorem withdraw_not_meant {meant : Source → Bool} (h : ∀ st, s.cau.staging = some st → meant st.source = false) :
    withdraw meant s = s := by
  cases hst : s.cau.staging with
  | none => simp only [withdraw, hst]
  | some st => simp [withdraw, hst, h st hst]

theorem isPresenceSource_iff (source : Source) : isPresenceSource source = true ↔ ∃ flag, source = .presence flag := by
  cases source <;> simp [isPresenceSource]

theorem isReadbackSource_iff (source : Source) : isReadbackSource source = true ↔ source = .readback := by
  cases source <;> simp [isReadbackSource]

theorem withdraw_presence {st : Staged} (hst : s.cau.staging = some st) (h : ∃ flag, st.source = .presence flag) :
    withdraw isPresenceSource s = emptyStaging s :=
  withdraw_meant hst ((isPresenceSource_iff _).mpr h) (by obtain ⟨flag, hflag⟩ := h; rw [hflag]; rfl)

theorem withdraw_readback {st : Staged} (hst : s.cau.staging = some st) (h : st.source = .readback) :
    withdraw isReadbackSource s = emptyStaging s :=
  withdraw_meant hst ((isReadbackSource_iff _).mpr h) (by rw [h]; rfl)

theorem withdraw_no_presence (h : ∀ st, s.cau.staging = some st → ¬ ∃ flag, st.source = .presence flag) :
    withdraw isPresenceSource s = s :=
  withdraw_not_meant fun st hst => Bool.eq_false_iff.mpr (mt (isPresenceSource_iff _).mp (h st hst))

theorem withdraw_no_readback (h : ∀ st, s.cau.staging = some st → st.source ≠ .readback) : withdraw isReadbackSource s = s :=
  withdraw_not_meant fun st hst => Bool.eq_false_iff.mpr (mt (isReadbackSource_iff _).mp (h st hst))

/-! ### The team's picture (R109) -/

theorem contextBuffers_eq_inUse (contexts : List (Option Context)) :
    contextBuffers contexts = (inUse contexts).flatMap Context.buffers := by
  rw [contextBuffers_eq_flatMap]
  induction contexts with
  | nil => rfl
  | cons x rest ih => cases x <;> simp_all [inUse]

theorem makeUnheld_eq (s : State) : makeUnheld s =
    { s with
      tmu.control := if isLocomotive s then .unheld else s.tmu.control
      stu.causes.noHolder := s.stu.causes.noHolder || isLocomotive s
      tpt.flags.causesChanged := s.tpt.flags.causesChanged || (isLocomotive s && !s.stu.causes.noHolder) } := by
  cases hloc : isLocomotive s with
  | true => simp [makeUnheld_of_locomotive hloc]
  | false => simp [makeUnheld, hloc]

/-- What R109 makes of the part before a staged burst is looked at. -/
def teamJoined (team : Team) (s : State) : State :=
  { s with
    tmu := { s.tmu with
      leavePending := false, attached := true, homeTeam := team, peers := [], presenceRequest := some .joining
      control := if isLocomotive s then .unheld else s.tmu.control }
    stu.causes.noHolder := s.stu.causes.noHolder || isLocomotive s
    tpt.flags.causesChanged := s.tpt.flags.causesChanged || (isLocomotive s && !s.stu.causes.noHolder)
    asu.contexts := s.asu.contexts.map (fun _ => none)
    bpl.free := s.bpl.free ++ (inUse s.asu.contexts).flatMap Context.buffers
    odu.rbq := [] }

/-- The picture with contexts and RBQ emptied, the staged burst still in its register. -/
def pictureCleared (s : State) : State :=
  { clearContexts (makeUnheld { s with tmu.leavePending := false, tmu.peers := [] }) with odu.rbq := [] }

theorem joined_eq (team : Team) (s : State) : joined team s = withdraw isPresenceSource
    { withdraw isReadbackSource (pictureCleared s) with
      tmu := { (withdraw isReadbackSource (pictureCleared s)).tmu with
        homeTeam := team, attached := true, presenceRequest := some .joining } } := rfl

theorem teamJoined_eq (team : Team) (s : State) : teamJoined team s =
    { pictureCleared s with
      tmu := { (pictureCleared s).tmu with homeTeam := team, attached := true, presenceRequest := some .joining } } := by
  rw [pictureCleared, makeUnheld_eq, clearContexts, contextBuffers_eq_inUse]
  rfl

theorem pictureCleared_staging (s : State) : (pictureCleared s).cau.staging = s.cau.staging := by
  rw [pictureCleared, makeUnheld_eq]
  rfl

theorem joined_of_other (team : Team)
    (h : ∀ st, s.cau.staging = some st → ¬ (st.source = .readback ∨ ∃ flag, st.source = .presence flag)) :
    joined team s = teamJoined team s := by
  rw [joined_eq, withdraw_no_readback (by rw [pictureCleared_staging]; exact fun st hst hr => h st hst (.inl hr)), teamJoined_eq]
  exact withdraw_no_presence (by rw [pictureCleared_staging]; exact fun st hst hp => h st hst (.inr hp))

theorem joined_of_meant (team : Team) {st : Staged} (hst : s.cau.staging = some st)
    (h : st.source = .readback ∨ ∃ flag, st.source = .presence flag) : joined team s = emptyStaging (teamJoined team s) := by
  have hpicture : (pictureCleared s).cau.staging = some st := (pictureCleared_staging s).trans hst
  rw [joined_eq, teamJoined_eq]
  rcases h with h | h
  · rw [withdraw_readback hpicture h, emptyStaging_eq, emptyStaging_eq]
    exact withdraw_no_presence (by simp)
  · have hnot : ∀ other, (pictureCleared s).cau.staging = some other → other.source ≠ .readback := by
      rintro other hother
      obtain rfl : st = other := Option.some.inj (hpicture.symm.trans hother)
      obtain ⟨flag, hflag⟩ := h
      simp [hflag]
    rw [withdraw_no_readback hnot]
    exact withdraw_presence hpicture h

/-! ### The tests of R108 and R110 -/

theorem anySlotInUse_iff : anySlotInUse s = true ↔ ∃ x ∈ s.odu.ool, x ≠ none := by
  simp [anySlotInUse, Option.isSome_iff_ne_none]

theorem anySlotInUse_eq_false (h : ∀ x ∈ s.odu.ool, x = none) : anySlotInUse s = false := by
  rw [Bool.eq_false_iff, ne_eq, anySlotInUse_iff]
  rintro ⟨x, hx, hne⟩
  exact hne (h x hx)

theorem joinRefusal_badRange {team : Team} (hrun : s.cfl.part = .running) (h : team = 0 ∨ 250 < team.toNat) :
    joinRefusal team s = some .badRange := by
  have hnot : ¬ (1 ≤ team.toNat ∧ team.toNat ≤ 250) := by
    rcases h with rfl | h
    · simp
    · omega
  simp only [joinRefusal, running, hrun, decide_true, Bool.not_true, Bool.false_eq_true, if_false, if_pos hnot]

theorem joinRefusal_of_inRange {team : Team} (hrun : s.cfl.part = .running) (hzero : team ≠ 0) (hmax : team.toNat ≤ 250) :
    joinRefusal team s = if anySlotInUse s then some .busy
      else if s.config.tight = true ∧ team ≠ s.config.homeTeam then some .locked else none := by
  have hpos : 1 ≤ team.toNat := Nat.one_le_iff_ne_zero.mpr fun hz => hzero (BitVec.eq_of_toNat_eq hz)
  simp only [joinRefusal, running, hrun, decide_true, Bool.not_true, Bool.false_eq_true, if_false, hpos, hmax, and_self,
    not_true_eq_false]

theorem leaveRefusal_of_running (hrun : s.cfl.part = .running) : leaveRefusal s =
    if s.tmu.attached = false then some .notAttached else if anySlotInUse s || s.tmu.leavePending then some .busy else none := by
  simp only [leaveRefusal, running, hrun, decide_true, Bool.not_true, Bool.false_eq_true, if_false, Bool.not_eq_true']

theorem joinTeam_refused {team : Team} {answer : ReplyCode} (h : joinRefusal team s = some answer) :
    joinTeam team s = refuse answer s := by
  rw [joinTeam, h]

theorem joinTeam_accepted {team : Team} (h : joinRefusal team s = none) : joinTeam team s = accept [] (arbitrate (joined team s)) := by
  rw [joinTeam, h]

theorem leaveTeam_refused {answer : ReplyCode} (h : leaveRefusal s = some answer) : leaveTeam s = refuse answer s := by
  rw [leaveTeam, h]

theorem leaveTeam_accepted (h : leaveRefusal s = none) :
    leaveTeam s = accept [] (arbitrate (requestPresence .leaving { s with tmu.leavePending := true })) := by
  rw [leaveTeam, h]

end

/-- Settles O46. -/
theorem teamsAreJoinedAndLeft : Obligations.TeamsAreJoinedAndLeft := by
  rintro f s dropped rfl
  refine ⟨fun h => answerFrame_outsideRunning _ h (by decide) (by decide), fun h => answerFrame_outsideRunning _ h (by decide) (by decide),
    fun h team hteam => ?_, fun h => ?_⟩
  · have hrun := running_of_framePasses h (by decide) (by decide)
    subst hteam
    refine ⟨fun hbad => ?_, fun hzero hmax => ?_⟩
    · exact answerFrame_refused h (joinTeam_refused (joinRefusal_badRange hrun hbad))
    have htests := joinRefusal_of_inRange hrun hzero hmax
    refine ⟨fun hbusy => ?_, fun hempty htight hother => ?_, fun hempty hfits emptied hemptied => ?_⟩
    · exact answerFrame_refused h (joinTeam_refused (by rw [htests, if_pos (anySlotInUse_iff.mpr hbusy)]))
    all_goals rw [anySlotInUse_eq_false hempty, if_neg Bool.false_ne_true] at htests
    · exact answerFrame_refused h (joinTeam_refused (by rw [htests, if_pos ⟨htight, hother⟩]))
    · have hpassed : joinRefusal (octetAt f.params 0) s = none := by
        rw [htests, if_neg]
        rintro ⟨htight, hother⟩
        rcases hfits with hloose | hsame
        · simp [hloose] at htight
        · exact hother hsame
      have hjoined : joined (octetAt f.params 0) s = emptied := by
        rcases hemptied with ⟨hnone, rfl⟩ | ⟨⟨st, hst, hmeant⟩, rfl⟩
        · exact joined_of_other _ hnone
        · rw [joined_of_meant _ hst hmeant, emptyStaging_eq]
          rfl
      exact answerFrame_accepted h (by rw [joinTeam_accepted hpassed, hjoined])
  · have htests := leaveRefusal_of_running (running_of_framePasses h (by decide) (by decide))
    refine ⟨fun hdetached => ?_, fun hattached => ?_⟩
    · exact answerFrame_refused h (leaveTeam_refused (by rw [htests, if_pos hdetached]))
    rw [if_neg (by simp [hattached])] at htests
    refine ⟨fun hbusy => ?_, fun hempty hpending emptied hemptied => ?_⟩
    · exact answerFrame_refused h (leaveTeam_refused (by
        rw [htests, if_pos (by rw [Bool.or_eq_true, anySlotInUse_iff]; exact hbusy)]))
    · have hpassed : leaveRefusal s = none := by
        rw [htests, anySlotInUse_eq_false hempty, hpending]
        rfl
      have hrequested : requestPresence .leaving { s with tmu.leavePending := true } = emptied := by
        rcases hemptied with ⟨hnone, rfl⟩ | ⟨⟨st, hst, hmeant⟩, rfl⟩
        · exact withdraw_no_presence hnone
        · exact (withdraw_presence (s := { s with tmu.leavePending := true, tmu.presenceRequest := some .leaving }) hst hmeant).trans
            (emptyStaging_eq _)
      exact answerFrame_accepted h (by rw [leaveTeam_accepted hpassed, hrequested])

/-! ### A RESTART in RUNNING (R165) -/

theorem restartRunning_eq (s : State) : restartRunning s =
    { s with
      rxc.reception := none
      cau := { sense := .clear, occupancy := 0, average := 0, crowded := false, crowdedHeard := false, rate := s.config.rInit,
               credit := 256, paceSamples := 0, staging := none, onAir := none, onAirSamples := 0, access := .idle, gapCount := 0,
               slotCount := 0, gateOpen := false, allstopRequest := none, generator := s.cau.generator }
      asu := { contexts := List.replicate 24 none, rcq := [], exq := [], agingMs := 0 }
      bpl.free := List.finRange 128
      bpl.held := []
      odu := { ool := List.replicate 8 none, rsq := [], rbq := [], callNumber := s.odu.callNumber, nextSequence := 0,
               finishedSlots := [] }
      tmu := { attached := true, leavePending := false, homeTeam := s.tmu.homeTeam, peers := [], control := .unheld,
               presenceRequest := some .joining, presenceCount := 0, silenceMs := 0, presenceMs := 0 }
      stu.causes.noHolder := s.stu.causes.noHolder || isLocomotive s
      stu.repeatCount := 0
      stu.seriesTeam := none
      tpt.flags := {} } := by
  unfold restartRunning
  cases hloc : isLocomotive s with
  | true =>
    simp only [if_true, putNoHolder_of_locomotive hloc, Bool.or_true]
    rfl
  | false =>
    simp only [Bool.false_eq_true, if_false, Bool.or_false]
    rfl

/-- Settles O47. -/
theorem restartKeepsAndSetsAgain : Obligations.RestartKeepsAndSetsAgain := fun f s h hrun => by
  have hown : restart s = accept [] (arbitrate (restartRunning s)) := if_pos (running_iff.mpr hrun)
  rw [← restartRunning_eq]
  exact answerFrame_accepted h hown

/-! ### The reset state -/

theorem resetState_not_running : State.reset.cfl.part ≠ .running := by decide

theorem transmitterSound_reset : TransmitterSound State.reset :=
  ⟨⟨rfl, rfl⟩, nofun, nofun, ⟨nofun, nofun⟩,
    ⟨fun h => absurd h resetState_not_running, by decide⟩, by decide, by decide, by decide⟩

theorem assemblySound_reset : AssemblySound State.reset := by
  have hcontexts : inUse State.reset.asu.contexts = [] := rfl
  refine ⟨⟨rfl, ?_, ?_⟩, by decide, by decide, nofun⟩
  · rw [hcontexts]
    exact List.nodup_nil
  · rw [hcontexts]
    exact nofun

/-- Settles O59. -/
theorem resetIsASoundPart : Obligations.ResetIsASoundPart := by
  have hidle := resetState_not_running
  exact ⟨rfl, ⟨by decide, nofun⟩,
    ⟨by decide, by decide, by decide, by decide, fun h => absurd h hidle⟩, transmitterSound_reset, assemblySound_reset,
    balanced_of_all_free rfl rfl rfl rfl, ⟨rfl, nofun⟩, ordersSound_iff.mpr (ordered_of_empty (number := 0) rfl),
    placesAgree_iff.mpr (placed_of_empty (number := 0) rfl rfl), arbiterKept_of_not_running hidle,
    ⟨⟨by decide, List.Pairwise.nil, fun h => absurd h hidle⟩, fun h => absurd h hidle⟩,
    fun _ => ⟨rfl, rfl, rfl, rfl, rfl, rfl, rfl, rfl, rfl, rfl, rfl⟩⟩

end Sys2Proof.Machine
end

section
/-! PROOF. What the reading commands of the port return (O38): the status block, the counts, the peers and the exceptions, octet by octet
as 12 section 12.2 places them. -/

namespace Sys2Proof.Machine

/-! ### Single octets -/

theorem Causes.toByte_eq : Causes.toByte = fun c => octet (c.radioStop.toNat + 2 * c.allstop.toNat + 4 * c.supervision.toNat +
    8 * c.noHolder.toNat + 16 * c.cab.toNat + 32 * c.terminal.toNat) := by
  have hmarks : ∀ b5 b4 b3 b2 b1 b0 : Bool,
      0#2 ++ BitVec.ofBool b5 ++ BitVec.ofBool b4 ++ BitVec.ofBool b3 ++ BitVec.ofBool b2 ++ BitVec.ofBool b1 ++ BitVec.ofBool b0 =
        octet (b0.toNat + 2 * b1.toNat + 4 * b2.toNat + 8 * b3.toNat + 16 * b4.toNat + 32 * b5.toNat) := by decide
  exact funext fun c => hmarks _ _ _ _ _ _

theorem StickyFlags.toByte_eq (f : StickyFlags) : f.toByte =
    octet (f.causesChanged.toNat + 2 * f.allstopHeard.toNat + 4 * f.exqOverflow.toNat + 8 * f.ownNumberHeard.toNat +
      16 * f.peerTableFull.toNat) := marks_eq_octet _ _ _ _ _

theorem PartState.toByte_eq (p : PartState) : p.toByte = if p = .configuring then 0 else if p = .running then 1 else 2 := by
  cases p <;> rfl

theorem roleByte_eq (role : Role) : roleByte role = if role = .locomotive then 1 else 0 := by cases role <;> rfl

theorem twoMarks_eq_octet : ∀ b1 b0 : Bool, 0#6 ++ BitVec.ofBool b1 ++ BitVec.ofBool b0 = octet (b0.toNat + 2 * b1.toNat) := by decide

theorem oneMark_eq_octet : ∀ b : Bool, (BitVec.ofBool b).setWidth 8 = octet b.toNat := by decide

/-! ### The status block (R147) -/

theorem slotOctets_eq : slotOctets = fun slot => slot.elim [0, 0, 0] (fun o =>
    [octet ((if o.state = .queued then 1 else if o.state = .sending then 2 else if o.state = .awaitReadback then 3 else 4) +
      8 * o.cancelPending.toNat), o.callNumber, octet o.attempts]) := by
  have hfirst : ∀ (pending : Bool) (state : OrderState), 0#4 ++ BitVec.ofBool pending ++ state.bits =
      octet ((if state = .queued then 1 else if state = .sending then 2 else if state = .awaitReadback then 3 else 4) +
        8 * pending.toNat) := by
    intro pending state
    cases state <;> cases pending <;> rfl
  funext slot
  cases slot with
  | none => rfl
  | some o => exact congrArg (fun first => [first, o.callNumber, octet o.attempts]) (hfirst o.cancelPending o.state)

theorem slotsInUse_eq (s : State) : slotsInUse s = (inUse s.odu.ool).length := by
  unfold slotsInUse inUse
  induction s.odu.ool with
  | nil => rfl
  | cons x rest ih => cases x <;> simp_all

theorem FaultCode.octets_eq {code : FaultCode} {fault : List Byte}
    (h : (code = .none → fault = [0, 0]) ∧ (code = .noMemory → fault = [1, 0]) ∧ (code = .badDigest → fault = [2, 0]) ∧
      ∀ offset, code = .badField offset → fault = [3, offset]) : fault = code.octets := by
  obtain ⟨hnone, hmemory, hdigest, hfield⟩ := h
  cases code with
  | none => exact hnone rfl
  | noMemory => exact hmemory rfl
  | badDigest => exact hdigest rfl
  | badField offset => exact hfield offset rfl

theorem rangeOctets_eq {pair : Option (Team × Team)} {range : List Byte}
    (h : (pair = none → range = [0, 0]) ∧ ∀ low high, pair = some (low, high) → range = [low, high]) :
    range = [(pair.map Prod.fst).getD 0, (pair.map Prod.snd).getD 0] := by
  cases pair with
  | none => exact h.1 rfl
  | some limits => exact h.2 limits.1 limits.2 rfl

theorem Control.octets_eq {c : Control} {control : List Byte}
    (h : (c = .unheld → control = List.replicate 7 0) ∧
      (∀ holder, c = .held holder → control = [1] ++ octetsOf holder ++ List.replicate 4 0) ∧
      ∀ holder offered stamp, c = .offerPending holder offered stamp →
        control = [2] ++ octetsOf holder ++ octetsOf offered ++ octetsOf stamp) : control = c.octets := by
  obtain ⟨hunheld, hheld, hoffer⟩ := h
  cases c with
  | unheld => exact hunheld rfl
  | held holder => exact hheld holder rfl
  | offerPending holder offered stamp => exact hoffer holder offered stamp rfl

theorem FaultCode.octets_length (code : FaultCode) : code.octets.length = 2 := by cases code <;> rfl

theorem Control.octets_length (c : Control) : c.octets.length = 7 := by cases c <;> rfl

theorem slotOctets_length (slot : Option Order) : (slotOctets slot).length = 3 := by cases slot <;> rfl

theorem flatMap_slotOctets_length (ool : List (Option Order)) : (ool.flatMap slotOctets).length = 3 * ool.length := by
  induction ool with
  | nil => rfl
  | cons x rest ih =>
    rw [List.flatMap_cons, List.length_append, slotOctets_length, ih, List.length_cons]
    omega

theorem statusBlock_length {s : State} (h : s.odu.ool.length = 8) : (statusBlock s).length = 56 := by
  simp only [statusBlock, octets2, octetsOf, List.length_append, List.length_cons, List.length_nil, FaultCode.octets_length,
    Control.octets_length, flatMap_slotOctets_length, h]

theorem config_of_not_running {s : State} (hpart : s.cfl.part ≠ .running) (h : ConfigKept s) : s.config = Config.blank := by
  obtain ⟨hforce, -⟩ := h
  have hnone : s.cfl.inForce = none := by
    rw [← Option.isSome_eq_false_iff.trans Option.isNone_iff_eq_none]
    exact Bool.eq_false_iff.mpr (mt hforce.mpr hpart)
  rw [State.config, hnone, Option.getD_none]

/-- At rest nothing but the free buffers differs from 0 behind part state and fault. -/
theorem statusBlock_drop_atRest {s : State} (hpart : s.cfl.part ≠ .running) (hconfig : ConfigKept s) (h : AtRest s) :
    (statusBlock s).drop 3 = List.replicate 20 0 ++ [128] ++ List.replicate 32 0 := by
  obtain ⟨-, -, hcau, hasu, hfree, -, hodu, htmu, hstu, hflags, hrange⟩ := h hpart
  have hcauses : s.stu.causes = {} := by
    rw [hstu]
    rfl
  have hdrop (a : Byte) (fault rest : List Byte) (hlength : fault.length = 2) : ([a] ++ fault ++ rest).drop 3 = rest :=
    List.drop_left' (by simp [hlength])
  simp only [statusBlock, config_of_not_running hpart hconfig, slotsInUse, hcau, hasu, hfree, hodu, htmu, hcauses, hflags, hrange,
    List.length_finRange]
  simp only [List.append_assoc]
  rw [← List.append_assoc, hdrop _ _ _ (FaultCode.octets_length _)]
  rfl

/-! ### Peers and exceptions (R152, R69) -/

theorem Peer.octets_eq : Peer.octets = fun p => octetsOf p.station ++
    [octet ((if p.role = .locomotive then 1 else 0) + (if p.link = .fading then 2 else if p.link = .lost then 4 else 0) +
       8 * p.reportedHolder.isSome.toNat + 16 * p.reportedCauses.isSome.toNat), octet p.silence] ++
    octetsOf p.lastHeard ++ octetsOf (p.reportedHolder.getD 0) ++ [(p.reportedCauses.map Causes.toByte).getD 0] := by
  have hmarks : ∀ (causes holder : Bool) (link : LinkState) (role : Role),
      0#3 ++ BitVec.ofBool causes ++ BitVec.ofBool holder ++ link.bits ++ BitVec.ofBool (Role.bit role) =
        octet ((if role = .locomotive then 1 else 0) + (if link = .fading then 2 else if link = .lost then 4 else 0) +
          8 * holder.toNat + 16 * causes.toNat) := by
    intro causes holder link role
    cases link <;> cases role <;> cases causes <;> cases holder <;> rfl
  funext p
  rw [Peer.octets, hmarks]
  rfl

theorem ExceptionCode.toByte_eq (code : ExceptionCode) : code.toByte =
    if code = .noContext then 1 else if code = .noBuffer then 2 else if code = .outOfOrder then 3
    else if code = .lengthMismatch then 4 else if code = .badType then 5 else if code = .agedOut then 6
    else if code = .superseded then 7 else 8 := by cases code <;> rfl

theorem takeException_empty {s : State} (h : s.asu.exq = []) : takeException s = refuse .empty s := by rw [takeException, h]

theorem takeException_cons {s : State} {e : ExceptionEntry} {rest : List ExceptionEntry} (h : s.asu.exq = e :: rest) :
    takeException s = accept e.octets { s with asu.exq := rest } := by rw [takeException, h]

/-- Settles O38. -/
theorem readingCommandsReturnWhatStands : Obligations.ReadingCommandsReturnWhatStands := by
  intro f s marks hmarks
  obtain rfl : marks = Causes.toByte := hmarks.trans Causes.toByte_eq.symm
  refine ⟨fun fault range control status hfault hrange hcontrol hstatus => ?_, fun counts hcounts => ⟨fun h => ?_, fun h => ?_⟩,
    fun h => ?_, fun h => ⟨fun hempty => ?_, fun e rest code hexq hcode => ?_⟩⟩
  · obtain rfl : status = statusBlock s := by
      rw [hstatus, FaultCode.octets_eq hfault, rangeOctets_eq hrange, Control.octets_eq hcontrol, ← slotsInUse_eq, ← slotOctets_eq,
        ← PartState.toByte_eq, ← roleByte_eq, ← twoMarks_eq_octet, ← oneMark_eq_octet, ← StickyFlags.toByte_eq]
      simp only [statusBlock, octets2, List.append_assoc, List.cons_append, List.nil_append]
    exact ⟨fun h => answerFrame_accepted h rfl, statusBlock_length, statusBlock_drop_atRest⟩
  · rw [hcounts]
    exact answerFrame_accepted h rfl
  · rw [hcounts]
    exact answerFrame_accepted h rfl
  · rw [← Peer.octets_eq]
    exact answerFrame_accepted h rfl
  · exact answerFrame_refused h (takeException_empty hempty)
  · obtain rfl : code = e.code.toByte := hcode.trans (ExceptionCode.toByte_eq _).symm
    exact answerFrame_accepted h (takeException_cons hexq)

end Sys2Proof.Machine
end
